-- ==== Sys2Proof/Word.lean ====
section
/-! DEFINITION. The machine's words and the small enumerations the rest is written in. -/

namespace Sys2Proof

/-- A data word and a register, 32 bits (00_scope.md R10). -/
abbrev Word := BitVec 32

/-- The smallest addressable unit (20_memory.md R80). -/
abbrev Byte := BitVec 8

/-- A logical register number, R0 to R15 (00_scope.md R10). -/
abbrev RegNum := BitVec 4

/-- A coprocessor register number, CR0 to CR15 (10_state.md R53). -/
abbrev CrNum := BitVec 4

/-- The processor modes (10_state.md R42). -/
inductive Mode where
  | usr | fiq | irq | svc
deriving DecidableEq, Repr

/-- The condition names (30_encoding.md R144), in the order of their encodings. -/
inductive Cond where
  | eq | ne | cs | cc | mi | pl | vs | vc | hi | ls | ge | lt | gt | le | al | nv
deriving DecidableEq, Repr

/-- The shift types of the barrel shifter (30_encoding.md R166). -/
inductive ShiftType where
  | lsl | lsr | asr | ror
deriving DecidableEq, Repr

/-- The data-processing operations (30_encoding.md R164), in the order of their opcodes. -/
inductive DpOp where
  | and | eor | sub | rsb | add | adc | sbc | rsc | tst | teq | cmp | cmn | orr | mov | bic | mvn
deriving DecidableEq, Repr

/-- The rights of a page (20_memory.md R83). -/
structure Perm where
  r : Bool
  w : Bool
  x : Bool
deriving DecidableEq, Repr

/-- The status codes of the host calls (20_memory.md R125), in the order the rule lists them. -/
inductive Status where
  | ok | invalidArguments | invalidCpuState | valueError | memoryError | ioError | invalidPage
  | alreadyMapped | noSuchDevice | maxHardwareDevicesExceeded | deviceError | unknownOpcode
  | breakpointHit | waitForInterrupt | internalConsistencyFailure
deriving DecidableEq, Repr

/-- The two interrupt pins (10_state.md R51). -/
inductive Pin where
  | fiq | irq
deriving DecidableEq, Repr

end Sys2Proof
end

