-- ==== Sys2Proof/Config.lean ====
section
/-! DEFINITION. What an implementation fixes (the layout constants of 00_scope.md R12 and the parameters of R11) and the
free values. A machine carries its `Config` in `State.cfg`, so a statement
about every state is a statement about every value of these parameters. The values at reset are `Config.std`. -/

namespace Sys2Proof

/-! The layout constants of R10, defined here once and nowhere repeated (00_scope.md R12). The other two R12 names, the
device count and the symbol-table size, are fields of `Config`. -/

/-- The width of the address bus. -/
abbrev addressBits : Nat := 26

/-- The width of an offset in a page. -/
abbrev pageBits : Nat := 12

/-- The bytes of the address space. -/
abbrev spaceBytes : Nat := 2 ^ addressBits

/-- The bytes of a page. -/
abbrev pageBytes : Nat := 2 ^ pageBits

/-- The pages of the address space. -/
abbrev pageCount : Nat := spaceBytes / pageBytes

/-- The words of the address space, one bit of a mask for each. -/
abbrev wordCount : Nat := spaceBytes / 4

/-- A physical byte address (00_scope.md R10). -/
abbrev Addr := BitVec addressBits

/-! The values of the parameters that are no numbers. Where the spec states one value only, the type has one value. -/

/-- `ENDIAN` (20_memory.md R85): little-endian, which "cannot be switched". -/
inductive Endian where
  | little
deriving DecidableEq, Repr

/-- `BLOCK_S` (44_block_transfer.md R346). -/
inductive BlockS where
  | arm2
deriving DecidableEq, Repr

/-- `PIN_CLEAR` (60_exceptions.md R532): when its interrupt is entered "and by nothing else". -/
inductive PinClear where
  | onEntry
deriving DecidableEq, Repr

/-- `T_FORMS` (43_single_transfer.md R301): refused, or the access made as in USR (92_eei_decisions.md D15; DESIGN CHOICE,
log entry 20). -/
inductive TForms where
  | refuse | userAccess
deriving DecidableEq, Repr

/-- `UNDEF_OUTCOME` and `CDT_OUTCOME` (30_encoding.md R170; 46_swi_coprocessor.md R414): the undefined-instruction
exception, or the host status unknown-opcode (92_eei_decisions.md D16; DESIGN CHOICE, log entry 20). -/
inductive UndefOutcome where
  | exception | unknownOpcode
deriving DecidableEq, Repr

/-- `TEST_NOS` (40_data_processing.md R215). -/
inductive TestNoS where
  | noEffect | refuse
deriving DecidableEq, Repr

/-- `DEV_FAIL` (20_memory.md R97, R98): an abort, or no meaning (DESIGN CHOICE, log entry 20). -/
inductive DevFail where
  | abort | refuse
deriving DecidableEq, Repr

/-- `LINK_VALUE(kind)` (60_exceptions.md R501; 92_eei_decisions.md D6), as what is added to A, for IRQ and FIQ to the
address of the next instruction. Reset saves no link; the link of a data abort is A by the source (D6). -/
structure LinkTable where
  undefinedInstruction : Addr
  softwareInterrupt : Addr
  prefetchAbort : Addr
  addressException : Addr
  irq : Addr
  fiq : Addr
deriving DecidableEq, Repr

/-- The parameters a model takes as arguments (00_scope.md R11, R12). -/
structure Config where
  /-- `CP_HWMGR`, `CP_MMU`, `CP_INTCTL` (46_swi_coprocessor.md R410; OPEN). -/
  cpHwmgr : BitVec 4
  cpMmu : BitVec 4
  cpIntctl : BitVec 4
  /-- `HWMGR_OP_*`, the op1 values of the hardware-manager operations (46_swi_coprocessor.md R420; OPEN). -/
  opNumDevices : BitVec 4
  opMapMemory : BitVec 4
  opDeviceId : BitVec 4
  opLastInterrupt : BitVec 4
  opWait : BitVec 4
  opClock : BitVec 4
  opDeviceOp : BitVec 4
  /-- `BKPT_IMM` (46_swi_coprocessor.md R401; OPEN). -/
  bkptImm : BitVec 24
  /-- `CLOCK_VALUE` (46_swi_coprocessor.md R426; OPEN). -/
  clockValue : Word
  /-- `MAX_HW_DEVICES` (20_memory.md R124; OPEN). -/
  maxHwDevices : Nat
  /-- `STATUS_VALUE(status)`, in the order of `Status` (20_memory.md R125; OPEN). -/
  statusValues : Vector Word 15
  /-- `USER_R15_WRITE_MASK` (10_state.md R47). -/
  userR15WriteMask : Word
  /-- `LDM_AFTER_ABORT` = continue (44_block_transfer.md R348). -/
  ldmContinuesAfterAbort : Bool
  /-- `SDT_ABORT_WRITEBACK` (43_single_transfer.md R303). -/
  sdtAbortWriteback : Bool
  /-- `PERM_CHECK_MODES` (20_memory.md R92). -/
  permCheckModes : List Mode
  /-- `FETCH_PERM` (20_memory.md R92). -/
  fetchPerm : Perm
  /-- `WATCH_ROLLBACK` (60_exceptions.md R542). -/
  watchRollback : Bool
  /-- `INTERRUPT_PIN` (60_exceptions.md R531). -/
  interruptPin : Pin
  /-- `ENDIAN`, `BLOCK_S`, `PIN_CLEAR`. -/
  endian : Endian
  blockS : BlockS
  pinClear : PinClear
  /-- `T_FORMS`. -/
  tForms : TForms
  /-- `UNDEF_OUTCOME`, `CDT_OUTCOME`. -/
  undefOutcome : UndefOutcome
  cdtOutcome : UndefOutcome
  /-- `TEST_NOS`. -/
  testNoS : TestNoS
  /-- `DEV_FAIL`. -/
  devFail : DevFail
  /-- `LINK_VALUE(kind)`. -/
  linkValue : LinkTable
  /-- The status of a `map_memory` call whose range fails its checks: R120 says an error status and names none
  (DESIGN CHOICE, log entry 13). -/
  badRangeStatus : Status
  /-- The permissions of a page `map_memory` creates: no rule states them (DESIGN CHOICE, log entry 13). -/
  newPagePerm : Perm
  /-- `BOOT_ROM_BASE`, `TAPE_BOUNDARY`, `SYMBOLS_BASE`, `MAX_SYMBOLS` (20_memory.md R126; OPEN). -/
  bootRomBase : Nat
  tapeBoundary : Nat
  symbolsBase : Nat
  maxSymbols : Nat
  /-- The status of a `load_rom` call that fails: R126 names none (DESIGN CHOICE, log entry 15). -/
  romErrorStatus : Status
deriving DecidableEq, Repr

namespace Config

/-- The three coprocessor numbers (46_swi_coprocessor.md R410). -/
def coprocNumbers (cfg : Config) : List (BitVec 4) :=
  [cfg.cpHwmgr, cfg.cpMmu, cfg.cpIntctl]

/-- The seven operation numbers (46_swi_coprocessor.md R420). -/
def hwmgrOps (cfg : Config) : List (BitVec 4) :=
  [cfg.opNumDevices, cfg.opMapMemory, cfg.opDeviceId, cfg.opLastInterrupt, cfg.opWait, cfg.opClock, cfg.opDeviceOp]

/-- What the spec requires of the parameters: distinct coprocessor numbers (R410), distinct operation numbers (R420),
distinct status values (R125), a user write mask that leaves I, F and M alone (60_exceptions.md R520),
error statuses that are errors (R120, R126), and page-aligned destinations of the loader (R126). -/
abbrev Wf (cfg : Config) : Prop :=
  cfg.coprocNumbers.Nodup ∧ cfg.hwmgrOps.Nodup ∧ cfg.statusValues.toList.Nodup ∧
  cfg.userR15WriteMask &&& 0x0C000003#32 = 0#32 ∧ cfg.badRangeStatus ≠ .ok ∧ cfg.romErrorStatus ≠ .ok ∧
  cfg.bootRomBase % pageBytes = 0 ∧ cfg.symbolsBase % pageBytes = 0

/-! The free values. Nothing constrains them: each has no body, and `State.draws` says which draw is next. -/

/-- `MUL_C`: C after a flag-setting multiply (41_multiply.md R261). -/
opaque mulCarry : Nat → Bool

/-- `DEVICE_OP_RESULT` and the result of a read callback (93_implementation_defined.md U7). -/
opaque deviceWord : Nat → Word

/-- Whether a device callback fails (92_eei_decisions.md D46). -/
opaque deviceFails : Nat → Bool

/-- The `interrupt(device_id, code)` call a device callback makes, if any (60_exceptions.md R531). -/
opaque deviceInterrupt : Nat → Option (Word × Word)

/-- The `flags` of a mapping record (20_memory.md R122). -/
opaque mappingFlags : Nat → Word

end Config

end Sys2Proof
end

