-- ==== Sys2Proof/Syntax.lean ====
section
/-! DEFINITION. The instructions: one constructor for each row of spec/opcode_table.json, with that row's fields in the
table's order. `c` is the condition, `sf` the S bit, `pf uf wf` the P, U and W bits. -/

namespace Sys2Proof

/-- The instructions of the core (30_encoding.md R173). Fields the rules ignore (30_encoding.md R171) are kept, so that no
bit of a word is lost. -/
inductive Instr where
  /-- AND, 40_data_processing.md R216: immediate, immediate-shifted and register-shifted operand. -/
  | andImm (c : Cond) (sf : Bool) (rn rd : RegNum) (rot : BitVec 4) (imm8 : BitVec 8)
  | andRsi (c : Cond) (sf : Bool) (rn rd : RegNum) (shamt : BitVec 5) (sh : ShiftType) (rm : RegNum)
  | andRsr (c : Cond) (sf : Bool) (rn rd rs : RegNum) (sh : ShiftType) (rm : RegNum)
  /-- EOR, 40_data_processing.md R217: immediate, immediate-shifted and register-shifted operand. -/
  | eorImm (c : Cond) (sf : Bool) (rn rd : RegNum) (rot : BitVec 4) (imm8 : BitVec 8)
  | eorRsi (c : Cond) (sf : Bool) (rn rd : RegNum) (shamt : BitVec 5) (sh : ShiftType) (rm : RegNum)
  | eorRsr (c : Cond) (sf : Bool) (rn rd rs : RegNum) (sh : ShiftType) (rm : RegNum)
  /-- SUB, 40_data_processing.md R218: immediate, immediate-shifted and register-shifted operand. -/
  | subImm (c : Cond) (sf : Bool) (rn rd : RegNum) (rot : BitVec 4) (imm8 : BitVec 8)
  | subRsi (c : Cond) (sf : Bool) (rn rd : RegNum) (shamt : BitVec 5) (sh : ShiftType) (rm : RegNum)
  | subRsr (c : Cond) (sf : Bool) (rn rd rs : RegNum) (sh : ShiftType) (rm : RegNum)
  /-- RSB, 40_data_processing.md R219: immediate, immediate-shifted and register-shifted operand. -/
  | rsbImm (c : Cond) (sf : Bool) (rn rd : RegNum) (rot : BitVec 4) (imm8 : BitVec 8)
  | rsbRsi (c : Cond) (sf : Bool) (rn rd : RegNum) (shamt : BitVec 5) (sh : ShiftType) (rm : RegNum)
  | rsbRsr (c : Cond) (sf : Bool) (rn rd rs : RegNum) (sh : ShiftType) (rm : RegNum)
  /-- ADD, 40_data_processing.md R220: immediate, immediate-shifted and register-shifted operand. -/
  | addImm (c : Cond) (sf : Bool) (rn rd : RegNum) (rot : BitVec 4) (imm8 : BitVec 8)
  | addRsi (c : Cond) (sf : Bool) (rn rd : RegNum) (shamt : BitVec 5) (sh : ShiftType) (rm : RegNum)
  | addRsr (c : Cond) (sf : Bool) (rn rd rs : RegNum) (sh : ShiftType) (rm : RegNum)
  /-- ADC, 40_data_processing.md R221: immediate, immediate-shifted and register-shifted operand. -/
  | adcImm (c : Cond) (sf : Bool) (rn rd : RegNum) (rot : BitVec 4) (imm8 : BitVec 8)
  | adcRsi (c : Cond) (sf : Bool) (rn rd : RegNum) (shamt : BitVec 5) (sh : ShiftType) (rm : RegNum)
  | adcRsr (c : Cond) (sf : Bool) (rn rd rs : RegNum) (sh : ShiftType) (rm : RegNum)
  /-- SBC, 40_data_processing.md R222: immediate, immediate-shifted and register-shifted operand. -/
  | sbcImm (c : Cond) (sf : Bool) (rn rd : RegNum) (rot : BitVec 4) (imm8 : BitVec 8)
  | sbcRsi (c : Cond) (sf : Bool) (rn rd : RegNum) (shamt : BitVec 5) (sh : ShiftType) (rm : RegNum)
  | sbcRsr (c : Cond) (sf : Bool) (rn rd rs : RegNum) (sh : ShiftType) (rm : RegNum)
  /-- RSC, 40_data_processing.md R223: immediate, immediate-shifted and register-shifted operand. -/
  | rscImm (c : Cond) (sf : Bool) (rn rd : RegNum) (rot : BitVec 4) (imm8 : BitVec 8)
  | rscRsi (c : Cond) (sf : Bool) (rn rd : RegNum) (shamt : BitVec 5) (sh : ShiftType) (rm : RegNum)
  | rscRsr (c : Cond) (sf : Bool) (rn rd rs : RegNum) (sh : ShiftType) (rm : RegNum)
  /-- TST, 40_data_processing.md R224: immediate, immediate-shifted and register-shifted operand. -/
  | tstImm (c : Cond) (sf : Bool) (rn rd : RegNum) (rot : BitVec 4) (imm8 : BitVec 8)
  | tstRsi (c : Cond) (sf : Bool) (rn rd : RegNum) (shamt : BitVec 5) (sh : ShiftType) (rm : RegNum)
  | tstRsr (c : Cond) (sf : Bool) (rn rd rs : RegNum) (sh : ShiftType) (rm : RegNum)
  /-- TEQ, 40_data_processing.md R225: immediate, immediate-shifted and register-shifted operand. -/
  | teqImm (c : Cond) (sf : Bool) (rn rd : RegNum) (rot : BitVec 4) (imm8 : BitVec 8)
  | teqRsi (c : Cond) (sf : Bool) (rn rd : RegNum) (shamt : BitVec 5) (sh : ShiftType) (rm : RegNum)
  | teqRsr (c : Cond) (sf : Bool) (rn rd rs : RegNum) (sh : ShiftType) (rm : RegNum)
  /-- CMP, 40_data_processing.md R226: immediate, immediate-shifted and register-shifted operand. -/
  | cmpImm (c : Cond) (sf : Bool) (rn rd : RegNum) (rot : BitVec 4) (imm8 : BitVec 8)
  | cmpRsi (c : Cond) (sf : Bool) (rn rd : RegNum) (shamt : BitVec 5) (sh : ShiftType) (rm : RegNum)
  | cmpRsr (c : Cond) (sf : Bool) (rn rd rs : RegNum) (sh : ShiftType) (rm : RegNum)
  /-- CMN, 40_data_processing.md R227: immediate, immediate-shifted and register-shifted operand. -/
  | cmnImm (c : Cond) (sf : Bool) (rn rd : RegNum) (rot : BitVec 4) (imm8 : BitVec 8)
  | cmnRsi (c : Cond) (sf : Bool) (rn rd : RegNum) (shamt : BitVec 5) (sh : ShiftType) (rm : RegNum)
  | cmnRsr (c : Cond) (sf : Bool) (rn rd rs : RegNum) (sh : ShiftType) (rm : RegNum)
  /-- ORR, 40_data_processing.md R228: immediate, immediate-shifted and register-shifted operand. -/
  | orrImm (c : Cond) (sf : Bool) (rn rd : RegNum) (rot : BitVec 4) (imm8 : BitVec 8)
  | orrRsi (c : Cond) (sf : Bool) (rn rd : RegNum) (shamt : BitVec 5) (sh : ShiftType) (rm : RegNum)
  | orrRsr (c : Cond) (sf : Bool) (rn rd rs : RegNum) (sh : ShiftType) (rm : RegNum)
  /-- MOV, 40_data_processing.md R229: immediate, immediate-shifted and register-shifted operand. -/
  | movImm (c : Cond) (sf : Bool) (rn rd : RegNum) (rot : BitVec 4) (imm8 : BitVec 8)
  | movRsi (c : Cond) (sf : Bool) (rn rd : RegNum) (shamt : BitVec 5) (sh : ShiftType) (rm : RegNum)
  | movRsr (c : Cond) (sf : Bool) (rn rd rs : RegNum) (sh : ShiftType) (rm : RegNum)
  /-- BIC, 40_data_processing.md R230: immediate, immediate-shifted and register-shifted operand. -/
  | bicImm (c : Cond) (sf : Bool) (rn rd : RegNum) (rot : BitVec 4) (imm8 : BitVec 8)
  | bicRsi (c : Cond) (sf : Bool) (rn rd : RegNum) (shamt : BitVec 5) (sh : ShiftType) (rm : RegNum)
  | bicRsr (c : Cond) (sf : Bool) (rn rd rs : RegNum) (sh : ShiftType) (rm : RegNum)
  /-- MVN, 40_data_processing.md R231: immediate, immediate-shifted and register-shifted operand. -/
  | mvnImm (c : Cond) (sf : Bool) (rn rd : RegNum) (rot : BitVec 4) (imm8 : BitVec 8)
  | mvnRsi (c : Cond) (sf : Bool) (rn rd : RegNum) (shamt : BitVec 5) (sh : ShiftType) (rm : RegNum)
  | mvnRsr (c : Cond) (sf : Bool) (rn rd rs : RegNum) (sh : ShiftType) (rm : RegNum)
  /-- MUL and MLA, 41_multiply.md R262, R263. -/
  | mul (c : Cond) (sf : Bool) (rd rn rs rm : RegNum)
  | mla (c : Cond) (sf : Bool) (rd rn rs rm : RegNum)
  /-- SWP and SWPB, 42_swap.md R284, R285. -/
  | swp (c : Cond) (rn rd rm : RegNum)
  | swpb (c : Cond) (rn rd rm : RegNum)
  /-- An unallocated word of class 00, 30_encoding.md R170 (a); `bits` is the whole word below the condition. -/
  | undefDp (c : Cond) (bits : BitVec 28)
  /-- STR, LDR, STRB, LDRB, 43_single_transfer.md R310 to R313: immediate and register offset. -/
  | strImm (c : Cond) (pf uf wf : Bool) (rn rd : RegNum) (imm12 : BitVec 12)
  | strReg (c : Cond) (pf uf wf : Bool) (rn rd : RegNum) (shamt : BitVec 5) (sh : ShiftType) (rm : RegNum)
  | ldrImm (c : Cond) (pf uf wf : Bool) (rn rd : RegNum) (imm12 : BitVec 12)
  | ldrReg (c : Cond) (pf uf wf : Bool) (rn rd : RegNum) (shamt : BitVec 5) (sh : ShiftType) (rm : RegNum)
  | strbImm (c : Cond) (pf uf wf : Bool) (rn rd : RegNum) (imm12 : BitVec 12)
  | strbReg (c : Cond) (pf uf wf : Bool) (rn rd : RegNum) (shamt : BitVec 5) (sh : ShiftType) (rm : RegNum)
  | ldrbImm (c : Cond) (pf uf wf : Bool) (rn rd : RegNum) (imm12 : BitVec 12)
  | ldrbReg (c : Cond) (pf uf wf : Bool) (rn rd : RegNum) (shamt : BitVec 5) (sh : ShiftType) (rm : RegNum)
  /-- An unallocated word of class 01, 30_encoding.md R170 (b); `bits` is the whole word below the condition. -/
  | undefSdt (c : Cond) (bits : BitVec 28)
  /-- STM and LDM, 44_block_transfer.md R351, R350. -/
  | stm (c : Cond) (pf uf sf wf : Bool) (rn : RegNum) (reglist : BitVec 16)
  | ldm (c : Cond) (pf uf sf wf : Bool) (rn : RegNum) (reglist : BitVec 16)
  /-- B and BL, 45_branch.md R382, R383. -/
  | b (c : Cond) (offset24 : BitVec 24)
  | bl (c : Cond) (offset24 : BitVec 24)
  /-- STC and LDC, 46_swi_coprocessor.md R414. -/
  | stc (c : Cond) (pf uf nf wf : Bool) (rn : RegNum) (crd : CrNum) (cp : BitVec 4) (offset8 : BitVec 8)
  | ldc (c : Cond) (pf uf nf wf : Bool) (rn : RegNum) (crd : CrNum) (cp : BitVec 4) (offset8 : BitVec 8)
  /-- CDP, 46_swi_coprocessor.md R413. -/
  | cdp (c : Cond) (op1 : BitVec 4) (crn crd : CrNum) (cp : BitVec 4) (op2 : BitVec 3) (crm : CrNum)
  /-- MCR and MRC, 46_swi_coprocessor.md R411, R412. -/
  | mcr (c : Cond) (op1 : BitVec 3) (crn : CrNum) (rd : RegNum) (cp : BitVec 4) (op2 : BitVec 3) (crm : CrNum)
  | mrc (c : Cond) (op1 : BitVec 3) (crn : CrNum) (rd : RegNum) (cp : BitVec 4) (op2 : BitVec 3) (crm : CrNum)
  /-- SWI, 46_swi_coprocessor.md R400. -/
  | swi (c : Cond) (imm24 : BitVec 24)
  /-- BKPT, the SWI whose immediate is `BKPT_IMM`, 46_swi_coprocessor.md R401. -/
  | bkpt (c : Cond) (imm24 : BitVec 24)
deriving DecidableEq, Repr

end Sys2Proof
end

