-- ==== Sys2Proof/WellFormed.lean ====
section
/-! DEFINITION. When a term of `Instr` is an instruction: the conditions its row of the opcode table adds to its fields. -/

namespace Sys2Proof

/-- The words of class 00 that are not data processing (30_encoding.md R147): bit 25 = 0 and bits 7 and 4 = 1. -/
abbrev InMultiplySpace (bits : BitVec 28) : Prop :=
  bits.extractLsb' 25 3 = 0#3 ∧ bits.getLsbD 7 = true ∧ bits.getLsbD 4 = true

/-- The MUL/MLA pattern (30_encoding.md R147, R154). -/
abbrev IsMultiply (bits : BitVec 28) : Prop :=
  bits.extractLsb' 22 6 = 0#6 ∧ bits.extractLsb' 4 4 = 0b1001#4

/-- The SWP/SWPB pattern (30_encoding.md R147, R155). -/
abbrev IsSwap (bits : BitVec 28) : Prop :=
  bits.extractLsb' 23 5 = 0b00010#5 ∧ bits.extractLsb' 20 2 = 0#2 ∧ bits.extractLsb' 4 8 = 0b00001001#8

/-- An unallocated word of class 00 (30_encoding.md R170 (a)). -/
abbrev IsUndefDp (bits : BitVec 28) : Prop :=
  InMultiplySpace bits ∧ ¬ IsMultiply bits ∧ ¬ IsSwap bits

/-- An unallocated word of class 01 (30_encoding.md R170 (b)). -/
abbrev IsUndefSdt (bits : BitVec 28) : Prop :=
  bits.extractLsb' 25 3 = 0b011#3 ∧ bits.getLsbD 4 = true

/-- A term is an instruction of a machine with parameters `cfg`. The opcode table puts conditions beyond the fields on
four rows only: the two unallocated rows, SWI and BKPT (30_encoding.md R170, R173). -/
def Instr.wf (cfg : Config) (i : Instr) : Bool :=
  match i with
  | .andImm .. | .andRsi .. | .andRsr .. => true
  | .eorImm .. | .eorRsi .. | .eorRsr .. => true
  | .subImm .. | .subRsi .. | .subRsr .. => true
  | .rsbImm .. | .rsbRsi .. | .rsbRsr .. => true
  | .addImm .. | .addRsi .. | .addRsr .. => true
  | .adcImm .. | .adcRsi .. | .adcRsr .. => true
  | .sbcImm .. | .sbcRsi .. | .sbcRsr .. => true
  | .rscImm .. | .rscRsi .. | .rscRsr .. => true
  | .tstImm .. | .tstRsi .. | .tstRsr .. => true
  | .teqImm .. | .teqRsi .. | .teqRsr .. => true
  | .cmpImm .. | .cmpRsi .. | .cmpRsr .. => true
  | .cmnImm .. | .cmnRsi .. | .cmnRsr .. => true
  | .orrImm .. | .orrRsi .. | .orrRsr .. => true
  | .movImm .. | .movRsi .. | .movRsr .. => true
  | .bicImm .. | .bicRsi .. | .bicRsr .. => true
  | .mvnImm .. | .mvnRsi .. | .mvnRsr .. => true
  | .mul .. | .mla .. | .swp .. | .swpb .. => true
  | .undefDp _ bits => decide (IsUndefDp bits)
  | .strImm .. | .strReg .. => true
  | .ldrImm .. | .ldrReg .. => true
  | .strbImm .. | .strbReg .. => true
  | .ldrbImm .. | .ldrbReg .. => true
  | .undefSdt _ bits => decide (IsUndefSdt bits)
  | .stm .. | .ldm .. | .b .. | .bl .. | .stc .. | .ldc .. | .cdp .. | .mcr .. | .mrc .. => true
  | .swi _ imm24 => decide (imm24 ≠ cfg.bkptImm)
  | .bkpt _ imm24 => decide (imm24 = cfg.bkptImm)

end Sys2Proof
end

