-- ==== Sys2Proof/Decode.lean ====
section
/-! DEFINITION. The decoder, total on every word, and the encoder, both written from the encoding tables of
30_encoding.md. `Config.std`, the parameter values a machine has at reset, stands here because the decoder of table words
needs `BKPT_IMM`. -/

namespace Sys2Proof

/-- The parameter values of the machine at reset (DESIGN CHOICE, log entry 1): the example values of 95_test_vectors.md
where it gives one, the defaults of 00_scope.md R11 where it gives those, and distinct numbers elsewhere. -/
def Config.std : Config where
  cpHwmgr := 2
  cpMmu := 3
  cpIntctl := 4
  opNumDevices := 0
  opMapMemory := 1
  opDeviceId := 2
  opLastInterrupt := 3
  opWait := 4
  opClock := 5
  opDeviceOp := 6
  bkptImm := 0x0000BB
  clockValue := 0
  maxHwDevices := 16
  statusValues := #v[0, 1, 2, 3, 4, 5, 6, 7, 8, 9, 10, 11, 12, 13, 14]
  userR15WriteMask := 0xF3FFFFFC
  ldmContinuesAfterAbort := true
  sdtAbortWriteback := false
  permCheckModes := [.usr]
  fetchPerm := ⟨false, false, false⟩
  watchRollback := false
  interruptPin := .irq
  endian := .little
  blockS := .arm2
  pinClear := .onEntry
  tForms := .refuse
  undefOutcome := .exception
  cdtOutcome := .exception
  testNoS := .noEffect
  devFail := .abort
  linkValue := ⟨4#26, 4#26, 0#26, 0#26, 0#26, 0#26⟩
  badRangeStatus := .invalidArguments
  newPagePerm := ⟨true, true, true⟩
  bootRomBase := 0
  tapeBoundary := 0x8000
  symbolsBase := 0x8000
  maxSymbols := 0x8000
  romErrorStatus := .ioError

/-! Fields and bytes. -/

/-- The value `v` standing in a word with its bit 0 at bit `lo` (00_scope.md R13). -/
def fieldAt {n : Nat} (v : BitVec n) (lo : Nat) : Word :=
  v.setWidth 32 <<< lo

/-- The one-bit value of a flag. -/
def bit (b : Bool) : BitVec 1 :=
  BitVec.ofBool b

/-- The word whose bytes, from the lowest address up, are `b0 b1 b2 b3` (20_memory.md R85: little-endian). -/
def wordOfBytes (b0 b1 b2 b3 : Byte) : Word :=
  fieldAt b3 24 ||| fieldAt b2 16 ||| fieldAt b1 8 ||| fieldAt b0 0

/-- Byte lane `k` of a word (20_memory.md R86). -/
def byteOfWord (w : Word) (k : Nat) : Byte :=
  w.extractLsb' (8 * k) 8

/-- The bytes of a word as memory holds them, the lowest address first (20_memory.md R85). -/
def bytesOfWord (w : Word) : List Byte :=
  [byteOfWord w 0, byteOfWord w 1, byteOfWord w 2, byteOfWord w 3]

/-! Field values. -/

/-- The condition field (30_encoding.md R144). -/
def Cond.ofBits (b : BitVec 4) : Cond :=
  match b.toNat with
  | 0 => .eq
  | 1 => .ne
  | 2 => .cs
  | 3 => .cc
  | 4 => .mi
  | 5 => .pl
  | 6 => .vs
  | 7 => .vc
  | 8 => .hi
  | 9 => .ls
  | 10 => .ge
  | 11 => .lt
  | 12 => .gt
  | 13 => .le
  | 14 => .al
  | _ => .nv

/-- The encoding of a condition (30_encoding.md R144). -/
def Cond.toBits (c : Cond) : BitVec 4 :=
  match c with
  | .eq => 0#4
  | .ne => 1#4
  | .cs => 2#4
  | .cc => 3#4
  | .mi => 4#4
  | .pl => 5#4
  | .vs => 6#4
  | .vc => 7#4
  | .hi => 8#4
  | .ls => 9#4
  | .ge => 10#4
  | .lt => 11#4
  | .gt => 12#4
  | .le => 13#4
  | .al => 14#4
  | .nv => 15#4

/-- The shift type field (30_encoding.md R166). -/
def ShiftType.ofBits (b : BitVec 2) : ShiftType :=
  match b.toNat with
  | 0 => .lsl
  | 1 => .lsr
  | 2 => .asr
  | _ => .ror

/-- The encoding of a shift type (30_encoding.md R166). -/
def ShiftType.toBits (sh : ShiftType) : BitVec 2 :=
  match sh with
  | .lsl => 0#2
  | .lsr => 1#2
  | .asr => 2#2
  | .ror => 3#2

/-- The data-processing opcode field (30_encoding.md R164). -/
def DpOp.ofBits (b : BitVec 4) : DpOp :=
  match b.toNat with
  | 0 => .and
  | 1 => .eor
  | 2 => .sub
  | 3 => .rsb
  | 4 => .add
  | 5 => .adc
  | 6 => .sbc
  | 7 => .rsc
  | 8 => .tst
  | 9 => .teq
  | 10 => .cmp
  | 11 => .cmn
  | 12 => .orr
  | 13 => .mov
  | 14 => .bic
  | _ => .mvn

/-- The opcode of a data-processing operation (30_encoding.md R164). -/
def DpOp.toBits (op : DpOp) : BitVec 4 :=
  match op with
  | .and => 0#4
  | .eor => 1#4
  | .sub => 2#4
  | .rsb => 3#4
  | .add => 4#4
  | .adc => 5#4
  | .sbc => 6#4
  | .rsc => 7#4
  | .tst => 8#4
  | .teq => 9#4
  | .cmp => 10#4
  | .cmn => 11#4
  | .orr => 12#4
  | .mov => 13#4
  | .bic => 14#4
  | .mvn => 15#4

/-! The data-processing instruction of an operation, in each of the three operand forms. -/

/-- The immediate form (30_encoding.md R151). -/
def Instr.dpImm (op : DpOp) (c : Cond) (sf : Bool) (rn rd : RegNum) (rot : BitVec 4) (imm8 : BitVec 8) : Instr :=
  match op with
  | .and => .andImm c sf rn rd rot imm8
  | .eor => .eorImm c sf rn rd rot imm8
  | .sub => .subImm c sf rn rd rot imm8
  | .rsb => .rsbImm c sf rn rd rot imm8
  | .add => .addImm c sf rn rd rot imm8
  | .adc => .adcImm c sf rn rd rot imm8
  | .sbc => .sbcImm c sf rn rd rot imm8
  | .rsc => .rscImm c sf rn rd rot imm8
  | .tst => .tstImm c sf rn rd rot imm8
  | .teq => .teqImm c sf rn rd rot imm8
  | .cmp => .cmpImm c sf rn rd rot imm8
  | .cmn => .cmnImm c sf rn rd rot imm8
  | .orr => .orrImm c sf rn rd rot imm8
  | .mov => .movImm c sf rn rd rot imm8
  | .bic => .bicImm c sf rn rd rot imm8
  | .mvn => .mvnImm c sf rn rd rot imm8

/-- The immediate-shift form (30_encoding.md R152). -/
def Instr.dpRsi (op : DpOp) (c : Cond) (sf : Bool) (rn rd : RegNum) (shamt : BitVec 5) (sh : ShiftType) (rm : RegNum) : Instr :=
  match op with
  | .and => .andRsi c sf rn rd shamt sh rm
  | .eor => .eorRsi c sf rn rd shamt sh rm
  | .sub => .subRsi c sf rn rd shamt sh rm
  | .rsb => .rsbRsi c sf rn rd shamt sh rm
  | .add => .addRsi c sf rn rd shamt sh rm
  | .adc => .adcRsi c sf rn rd shamt sh rm
  | .sbc => .sbcRsi c sf rn rd shamt sh rm
  | .rsc => .rscRsi c sf rn rd shamt sh rm
  | .tst => .tstRsi c sf rn rd shamt sh rm
  | .teq => .teqRsi c sf rn rd shamt sh rm
  | .cmp => .cmpRsi c sf rn rd shamt sh rm
  | .cmn => .cmnRsi c sf rn rd shamt sh rm
  | .orr => .orrRsi c sf rn rd shamt sh rm
  | .mov => .movRsi c sf rn rd shamt sh rm
  | .bic => .bicRsi c sf rn rd shamt sh rm
  | .mvn => .mvnRsi c sf rn rd shamt sh rm

/-- The register-shift form (30_encoding.md R153). -/
def Instr.dpRsr (op : DpOp) (c : Cond) (sf : Bool) (rn rd rs : RegNum) (sh : ShiftType) (rm : RegNum) : Instr :=
  match op with
  | .and => .andRsr c sf rn rd rs sh rm
  | .eor => .eorRsr c sf rn rd rs sh rm
  | .sub => .subRsr c sf rn rd rs sh rm
  | .rsb => .rsbRsr c sf rn rd rs sh rm
  | .add => .addRsr c sf rn rd rs sh rm
  | .adc => .adcRsr c sf rn rd rs sh rm
  | .sbc => .sbcRsr c sf rn rd rs sh rm
  | .rsc => .rscRsr c sf rn rd rs sh rm
  | .tst => .tstRsr c sf rn rd rs sh rm
  | .teq => .teqRsr c sf rn rd rs sh rm
  | .cmp => .cmpRsr c sf rn rd rs sh rm
  | .cmn => .cmnRsr c sf rn rd rs sh rm
  | .orr => .orrRsr c sf rn rd rs sh rm
  | .mov => .movRsr c sf rn rd rs sh rm
  | .bic => .bicRsr c sf rn rd rs sh rm
  | .mvn => .mvnRsr c sf rn rd rs sh rm

/-! The decode tree (30_encoding.md R146 to R150). -/

/-- Class 00 (30_encoding.md R147). -/
def decodeClass00 (c : Cond) (w : Word) : Instr :=
  if IsMultiply (w.extractLsb' 0 28) then
    if w.getLsbD 21 then
      .mla c (w.getLsbD 20) (w.extractLsb' 16 4) (w.extractLsb' 12 4) (w.extractLsb' 8 4) (w.extractLsb' 0 4)
    else
      .mul c (w.getLsbD 20) (w.extractLsb' 16 4) (w.extractLsb' 12 4) (w.extractLsb' 8 4) (w.extractLsb' 0 4)
  else if IsSwap (w.extractLsb' 0 28) then
    if w.getLsbD 22 then .swpb c (w.extractLsb' 16 4) (w.extractLsb' 12 4) (w.extractLsb' 0 4)
    else .swp c (w.extractLsb' 16 4) (w.extractLsb' 12 4) (w.extractLsb' 0 4)
  else if w.getLsbD 25 then
    .dpImm (DpOp.ofBits (w.extractLsb' 21 4)) c (w.getLsbD 20) (w.extractLsb' 16 4) (w.extractLsb' 12 4)
      (w.extractLsb' 8 4) (w.extractLsb' 0 8)
  else if !w.getLsbD 4 then
    .dpRsi (DpOp.ofBits (w.extractLsb' 21 4)) c (w.getLsbD 20) (w.extractLsb' 16 4) (w.extractLsb' 12 4)
      (w.extractLsb' 7 5) (ShiftType.ofBits (w.extractLsb' 5 2)) (w.extractLsb' 0 4)
  else if !w.getLsbD 7 then
    .dpRsr (DpOp.ofBits (w.extractLsb' 21 4)) c (w.getLsbD 20) (w.extractLsb' 16 4) (w.extractLsb' 12 4)
      (w.extractLsb' 8 4) (ShiftType.ofBits (w.extractLsb' 5 2)) (w.extractLsb' 0 4)
  else .undefDp c (w.extractLsb' 0 28)

/-- The single transfer with an immediate offset that the L and B bits name (30_encoding.md R156). -/
def Instr.sdtImm (load byte : Bool) (c : Cond) (pf uf wf : Bool) (rn rd : RegNum) (imm12 : BitVec 12) : Instr :=
  match load, byte with
  | false, false => .strImm c pf uf wf rn rd imm12
  | true, false => .ldrImm c pf uf wf rn rd imm12
  | false, true => .strbImm c pf uf wf rn rd imm12
  | true, true => .ldrbImm c pf uf wf rn rd imm12

/-- The single transfer with a register offset that the L and B bits name (30_encoding.md R157). -/
def Instr.sdtReg (load byte : Bool) (c : Cond) (pf uf wf : Bool) (rn rd : RegNum) (shamt : BitVec 5) (sh : ShiftType)
    (rm : RegNum) : Instr :=
  match load, byte with
  | false, false => .strReg c pf uf wf rn rd shamt sh rm
  | true, false => .ldrReg c pf uf wf rn rd shamt sh rm
  | false, true => .strbReg c pf uf wf rn rd shamt sh rm
  | true, true => .ldrbReg c pf uf wf rn rd shamt sh rm

/-- Class 01 (30_encoding.md R148). -/
def decodeClass01 (c : Cond) (w : Word) : Instr :=
  if !w.getLsbD 25 then
    .sdtImm (w.getLsbD 20) (w.getLsbD 22) c (w.getLsbD 24) (w.getLsbD 23) (w.getLsbD 21) (w.extractLsb' 16 4)
      (w.extractLsb' 12 4) (w.extractLsb' 0 12)
  else if !w.getLsbD 4 then
    .sdtReg (w.getLsbD 20) (w.getLsbD 22) c (w.getLsbD 24) (w.getLsbD 23) (w.getLsbD 21) (w.extractLsb' 16 4)
      (w.extractLsb' 12 4) (w.extractLsb' 7 5) (ShiftType.ofBits (w.extractLsb' 5 2)) (w.extractLsb' 0 4)
  else .undefSdt c (w.extractLsb' 0 28)

/-- Class 10 (30_encoding.md R149). -/
def decodeClass10 (c : Cond) (w : Word) : Instr :=
  if w.getLsbD 25 then
    if w.getLsbD 24 then .bl c (w.extractLsb' 0 24) else .b c (w.extractLsb' 0 24)
  else if w.getLsbD 20 then
    .ldm c (w.getLsbD 24) (w.getLsbD 23) (w.getLsbD 22) (w.getLsbD 21) (w.extractLsb' 16 4) (w.extractLsb' 0 16)
  else
    .stm c (w.getLsbD 24) (w.getLsbD 23) (w.getLsbD 22) (w.getLsbD 21) (w.extractLsb' 16 4) (w.extractLsb' 0 16)

/-- Class 11 (30_encoding.md R150); a SWI whose immediate is `BKPT_IMM` is BKPT (R173). -/
def decodeClass11 (cfg : Config) (c : Cond) (w : Word) : Instr :=
  if !w.getLsbD 25 then
    if w.getLsbD 20 then
      .ldc c (w.getLsbD 24) (w.getLsbD 23) (w.getLsbD 22) (w.getLsbD 21) (w.extractLsb' 16 4) (w.extractLsb' 12 4)
        (w.extractLsb' 8 4) (w.extractLsb' 0 8)
    else
      .stc c (w.getLsbD 24) (w.getLsbD 23) (w.getLsbD 22) (w.getLsbD 21) (w.extractLsb' 16 4) (w.extractLsb' 12 4)
        (w.extractLsb' 8 4) (w.extractLsb' 0 8)
  else if w.getLsbD 24 then
    if w.extractLsb' 0 24 = cfg.bkptImm then .bkpt c (w.extractLsb' 0 24) else .swi c (w.extractLsb' 0 24)
  else if !w.getLsbD 4 then
    .cdp c (w.extractLsb' 20 4) (w.extractLsb' 16 4) (w.extractLsb' 12 4) (w.extractLsb' 8 4) (w.extractLsb' 5 3)
      (w.extractLsb' 0 4)
  else if w.getLsbD 20 then
    .mrc c (w.extractLsb' 21 3) (w.extractLsb' 16 4) (w.extractLsb' 12 4) (w.extractLsb' 8 4) (w.extractLsb' 5 3)
      (w.extractLsb' 0 4)
  else
    .mcr c (w.extractLsb' 21 3) (w.extractLsb' 16 4) (w.extractLsb' 12 4) (w.extractLsb' 8 4) (w.extractLsb' 5 3)
      (w.extractLsb' 0 4)

/-- The instruction a word stands for (30_encoding.md R146, R173): every word is exactly one row of the table. -/
def decode (cfg : Config) (w : Word) : Instr :=
  let c := Cond.ofBits (w.extractLsb' 28 4)
  if !w.getLsbD 27 then
    if !w.getLsbD 26 then decodeClass00 c w else decodeClass01 c w
  else
    if !w.getLsbD 26 then decodeClass10 c w else decodeClass11 cfg c w

/-- Why bytes are no instruction. A word of four bytes always is one; the only rejection is of fewer than four
(30_encoding.md R140). -/
inductive DecodeError where
  | truncated
deriving DecidableEq, Repr

/-- The first instruction of a list of bytes, and the bytes after it (30_encoding.md R140). -/
def decodeBytes (cfg : Config) (bytes : List Byte) : Except DecodeError (Instr × List Byte) :=
  match bytes with
  | b0 :: b1 :: b2 :: b3 :: rest => .ok (decode cfg (wordOfBytes b0 b1 b2 b3), rest)
  | _ => .error .truncated

/-- The instruction of an opcode-table word of `nbits` bits, laid out in memory order and decoded. -/
def decodeTableWord (nbits w : Nat) : Option Instr :=
  if nbits = 0 ∨ 32 < nbits then none
  else
    match decodeBytes Config.std (bytesOfWord (BitVec.ofNat 32 (w % 2 ^ nbits))) with
    | .ok (i, _) => some i
    | .error _ => none

/-! The encoder, format by format (30_encoding.md R151 to R163). -/

/-- DP-imm (30_encoding.md R151). -/
def encodeDpImm (op : DpOp) (c : Cond) (sf : Bool) (rn rd : RegNum) (rot : BitVec 4) (imm8 : BitVec 8) : Word :=
  fieldAt c.toBits 28 ||| fieldAt 1#1 25 ||| fieldAt op.toBits 21 ||| fieldAt (bit sf) 20 ||| fieldAt rn 16 |||
  fieldAt rd 12 ||| fieldAt rot 8 ||| fieldAt imm8 0

/-- DP-rsi (30_encoding.md R152). -/
def encodeDpRsi (op : DpOp) (c : Cond) (sf : Bool) (rn rd : RegNum) (shamt : BitVec 5) (sh : ShiftType) (rm : RegNum) :
    Word :=
  fieldAt c.toBits 28 ||| fieldAt op.toBits 21 ||| fieldAt (bit sf) 20 ||| fieldAt rn 16 ||| fieldAt rd 12 |||
  fieldAt shamt 7 ||| fieldAt sh.toBits 5 ||| fieldAt rm 0

/-- DP-rsr (30_encoding.md R153). -/
def encodeDpRsr (op : DpOp) (c : Cond) (sf : Bool) (rn rd rs : RegNum) (sh : ShiftType) (rm : RegNum) : Word :=
  fieldAt c.toBits 28 ||| fieldAt op.toBits 21 ||| fieldAt (bit sf) 20 ||| fieldAt rn 16 ||| fieldAt rd 12 |||
  fieldAt rs 8 ||| fieldAt sh.toBits 5 ||| fieldAt 1#1 4 ||| fieldAt rm 0

/-- MUL/MLA (30_encoding.md R154). -/
def encodeMul (acc : Bool) (c : Cond) (sf : Bool) (rd rn rs rm : RegNum) : Word :=
  fieldAt c.toBits 28 ||| fieldAt (bit acc) 21 ||| fieldAt (bit sf) 20 ||| fieldAt rd 16 ||| fieldAt rn 12 |||
  fieldAt rs 8 ||| fieldAt 0b1001#4 4 ||| fieldAt rm 0

/-- SWP/SWPB (30_encoding.md R155). -/
def encodeSwap (byte : Bool) (c : Cond) (rn rd rm : RegNum) : Word :=
  fieldAt c.toBits 28 ||| fieldAt 0b00010#5 23 ||| fieldAt (bit byte) 22 ||| fieldAt rn 16 ||| fieldAt rd 12 |||
  fieldAt 0b00001001#8 4 ||| fieldAt rm 0

/-- SDT-imm (30_encoding.md R156). -/
def encodeSdtImm (load byte : Bool) (c : Cond) (pf uf wf : Bool) (rn rd : RegNum) (imm12 : BitVec 12) : Word :=
  fieldAt c.toBits 28 ||| fieldAt 0b01#2 26 ||| fieldAt (bit pf) 24 ||| fieldAt (bit uf) 23 ||| fieldAt (bit byte) 22 |||
  fieldAt (bit wf) 21 ||| fieldAt (bit load) 20 ||| fieldAt rn 16 ||| fieldAt rd 12 ||| fieldAt imm12 0

/-- SDT-reg (30_encoding.md R157). -/
def encodeSdtReg (load byte : Bool) (c : Cond) (pf uf wf : Bool) (rn rd : RegNum) (shamt : BitVec 5) (sh : ShiftType)
    (rm : RegNum) : Word :=
  fieldAt c.toBits 28 ||| fieldAt 0b011#3 25 ||| fieldAt (bit pf) 24 ||| fieldAt (bit uf) 23 ||| fieldAt (bit byte) 22 |||
  fieldAt (bit wf) 21 ||| fieldAt (bit load) 20 ||| fieldAt rn 16 ||| fieldAt rd 12 ||| fieldAt shamt 7 |||
  fieldAt sh.toBits 5 ||| fieldAt rm 0

/-- BDT (30_encoding.md R158). -/
def encodeBdt (load : Bool) (c : Cond) (pf uf sf wf : Bool) (rn : RegNum) (reglist : BitVec 16) : Word :=
  fieldAt c.toBits 28 ||| fieldAt 0b100#3 25 ||| fieldAt (bit pf) 24 ||| fieldAt (bit uf) 23 ||| fieldAt (bit sf) 22 |||
  fieldAt (bit wf) 21 ||| fieldAt (bit load) 20 ||| fieldAt rn 16 ||| fieldAt reglist 0

/-- B/BL (30_encoding.md R159). -/
def encodeBranch (link : Bool) (c : Cond) (offset24 : BitVec 24) : Word :=
  fieldAt c.toBits 28 ||| fieldAt 0b101#3 25 ||| fieldAt (bit link) 24 ||| fieldAt offset24 0

/-- CDT (30_encoding.md R160). -/
def encodeCdt (load : Bool) (c : Cond) (pf uf nf wf : Bool) (rn : RegNum) (crd : CrNum) (cp : BitVec 4)
    (offset8 : BitVec 8) : Word :=
  fieldAt c.toBits 28 ||| fieldAt 0b110#3 25 ||| fieldAt (bit pf) 24 ||| fieldAt (bit uf) 23 ||| fieldAt (bit nf) 22 |||
  fieldAt (bit wf) 21 ||| fieldAt (bit load) 20 ||| fieldAt rn 16 ||| fieldAt crd 12 ||| fieldAt cp 8 |||
  fieldAt offset8 0

/-- CDP (30_encoding.md R161). -/
def encodeCdp (c : Cond) (op1 : BitVec 4) (crn crd : CrNum) (cp : BitVec 4) (op2 : BitVec 3) (crm : CrNum) : Word :=
  fieldAt c.toBits 28 ||| fieldAt 0b1110#4 24 ||| fieldAt op1 20 ||| fieldAt crn 16 ||| fieldAt crd 12 |||
  fieldAt cp 8 ||| fieldAt op2 5 ||| fieldAt crm 0

/-- MCR/MRC (30_encoding.md R162). -/
def encodeCrt (load : Bool) (c : Cond) (op1 : BitVec 3) (crn : CrNum) (rd : RegNum) (cp : BitVec 4) (op2 : BitVec 3)
    (crm : CrNum) : Word :=
  fieldAt c.toBits 28 ||| fieldAt 0b1110#4 24 ||| fieldAt op1 21 ||| fieldAt (bit load) 20 ||| fieldAt crn 16 |||
  fieldAt rd 12 ||| fieldAt cp 8 ||| fieldAt op2 5 ||| fieldAt 1#1 4 ||| fieldAt crm 0

/-- SWI (30_encoding.md R163). -/
def encodeSwi (c : Cond) (imm24 : BitVec 24) : Word :=
  fieldAt c.toBits 28 ||| fieldAt 0b1111#4 24 ||| fieldAt imm24 0

/-- A word known below its condition (30_encoding.md R170). -/
def encodeRaw (c : Cond) (bits : BitVec 28) : Word :=
  fieldAt c.toBits 28 ||| fieldAt bits 0

/-- The word of an instruction. -/
def encode (i : Instr) : Word :=
  match i with
  | .andImm c sf rn rd rot imm8 => encodeDpImm .and c sf rn rd rot imm8
  | .andRsi c sf rn rd shamt sh rm => encodeDpRsi .and c sf rn rd shamt sh rm
  | .andRsr c sf rn rd rs sh rm => encodeDpRsr .and c sf rn rd rs sh rm
  | .eorImm c sf rn rd rot imm8 => encodeDpImm .eor c sf rn rd rot imm8
  | .eorRsi c sf rn rd shamt sh rm => encodeDpRsi .eor c sf rn rd shamt sh rm
  | .eorRsr c sf rn rd rs sh rm => encodeDpRsr .eor c sf rn rd rs sh rm
  | .subImm c sf rn rd rot imm8 => encodeDpImm .sub c sf rn rd rot imm8
  | .subRsi c sf rn rd shamt sh rm => encodeDpRsi .sub c sf rn rd shamt sh rm
  | .subRsr c sf rn rd rs sh rm => encodeDpRsr .sub c sf rn rd rs sh rm
  | .rsbImm c sf rn rd rot imm8 => encodeDpImm .rsb c sf rn rd rot imm8
  | .rsbRsi c sf rn rd shamt sh rm => encodeDpRsi .rsb c sf rn rd shamt sh rm
  | .rsbRsr c sf rn rd rs sh rm => encodeDpRsr .rsb c sf rn rd rs sh rm
  | .addImm c sf rn rd rot imm8 => encodeDpImm .add c sf rn rd rot imm8
  | .addRsi c sf rn rd shamt sh rm => encodeDpRsi .add c sf rn rd shamt sh rm
  | .addRsr c sf rn rd rs sh rm => encodeDpRsr .add c sf rn rd rs sh rm
  | .adcImm c sf rn rd rot imm8 => encodeDpImm .adc c sf rn rd rot imm8
  | .adcRsi c sf rn rd shamt sh rm => encodeDpRsi .adc c sf rn rd shamt sh rm
  | .adcRsr c sf rn rd rs sh rm => encodeDpRsr .adc c sf rn rd rs sh rm
  | .sbcImm c sf rn rd rot imm8 => encodeDpImm .sbc c sf rn rd rot imm8
  | .sbcRsi c sf rn rd shamt sh rm => encodeDpRsi .sbc c sf rn rd shamt sh rm
  | .sbcRsr c sf rn rd rs sh rm => encodeDpRsr .sbc c sf rn rd rs sh rm
  | .rscImm c sf rn rd rot imm8 => encodeDpImm .rsc c sf rn rd rot imm8
  | .rscRsi c sf rn rd shamt sh rm => encodeDpRsi .rsc c sf rn rd shamt sh rm
  | .rscRsr c sf rn rd rs sh rm => encodeDpRsr .rsc c sf rn rd rs sh rm
  | .tstImm c sf rn rd rot imm8 => encodeDpImm .tst c sf rn rd rot imm8
  | .tstRsi c sf rn rd shamt sh rm => encodeDpRsi .tst c sf rn rd shamt sh rm
  | .tstRsr c sf rn rd rs sh rm => encodeDpRsr .tst c sf rn rd rs sh rm
  | .teqImm c sf rn rd rot imm8 => encodeDpImm .teq c sf rn rd rot imm8
  | .teqRsi c sf rn rd shamt sh rm => encodeDpRsi .teq c sf rn rd shamt sh rm
  | .teqRsr c sf rn rd rs sh rm => encodeDpRsr .teq c sf rn rd rs sh rm
  | .cmpImm c sf rn rd rot imm8 => encodeDpImm .cmp c sf rn rd rot imm8
  | .cmpRsi c sf rn rd shamt sh rm => encodeDpRsi .cmp c sf rn rd shamt sh rm
  | .cmpRsr c sf rn rd rs sh rm => encodeDpRsr .cmp c sf rn rd rs sh rm
  | .cmnImm c sf rn rd rot imm8 => encodeDpImm .cmn c sf rn rd rot imm8
  | .cmnRsi c sf rn rd shamt sh rm => encodeDpRsi .cmn c sf rn rd shamt sh rm
  | .cmnRsr c sf rn rd rs sh rm => encodeDpRsr .cmn c sf rn rd rs sh rm
  | .orrImm c sf rn rd rot imm8 => encodeDpImm .orr c sf rn rd rot imm8
  | .orrRsi c sf rn rd shamt sh rm => encodeDpRsi .orr c sf rn rd shamt sh rm
  | .orrRsr c sf rn rd rs sh rm => encodeDpRsr .orr c sf rn rd rs sh rm
  | .movImm c sf rn rd rot imm8 => encodeDpImm .mov c sf rn rd rot imm8
  | .movRsi c sf rn rd shamt sh rm => encodeDpRsi .mov c sf rn rd shamt sh rm
  | .movRsr c sf rn rd rs sh rm => encodeDpRsr .mov c sf rn rd rs sh rm
  | .bicImm c sf rn rd rot imm8 => encodeDpImm .bic c sf rn rd rot imm8
  | .bicRsi c sf rn rd shamt sh rm => encodeDpRsi .bic c sf rn rd shamt sh rm
  | .bicRsr c sf rn rd rs sh rm => encodeDpRsr .bic c sf rn rd rs sh rm
  | .mvnImm c sf rn rd rot imm8 => encodeDpImm .mvn c sf rn rd rot imm8
  | .mvnRsi c sf rn rd shamt sh rm => encodeDpRsi .mvn c sf rn rd shamt sh rm
  | .mvnRsr c sf rn rd rs sh rm => encodeDpRsr .mvn c sf rn rd rs sh rm
  | .mul c sf rd rn rs rm => encodeMul false c sf rd rn rs rm
  | .mla c sf rd rn rs rm => encodeMul true c sf rd rn rs rm
  | .swp c rn rd rm => encodeSwap false c rn rd rm
  | .swpb c rn rd rm => encodeSwap true c rn rd rm
  | .undefDp c bits => encodeRaw c bits
  | .strImm c pf uf wf rn rd imm12 => encodeSdtImm false false c pf uf wf rn rd imm12
  | .strReg c pf uf wf rn rd shamt sh rm => encodeSdtReg false false c pf uf wf rn rd shamt sh rm
  | .ldrImm c pf uf wf rn rd imm12 => encodeSdtImm true false c pf uf wf rn rd imm12
  | .ldrReg c pf uf wf rn rd shamt sh rm => encodeSdtReg true false c pf uf wf rn rd shamt sh rm
  | .strbImm c pf uf wf rn rd imm12 => encodeSdtImm false true c pf uf wf rn rd imm12
  | .strbReg c pf uf wf rn rd shamt sh rm => encodeSdtReg false true c pf uf wf rn rd shamt sh rm
  | .ldrbImm c pf uf wf rn rd imm12 => encodeSdtImm true true c pf uf wf rn rd imm12
  | .ldrbReg c pf uf wf rn rd shamt sh rm => encodeSdtReg true true c pf uf wf rn rd shamt sh rm
  | .undefSdt c bits => encodeRaw c bits
  | .stm c pf uf sf wf rn reglist => encodeBdt false c pf uf sf wf rn reglist
  | .ldm c pf uf sf wf rn reglist => encodeBdt true c pf uf sf wf rn reglist
  | .b c offset24 => encodeBranch false c offset24
  | .bl c offset24 => encodeBranch true c offset24
  | .stc c pf uf nf wf rn crd cp offset8 => encodeCdt false c pf uf nf wf rn crd cp offset8
  | .ldc c pf uf nf wf rn crd cp offset8 => encodeCdt true c pf uf nf wf rn crd cp offset8
  | .cdp c op1 crn crd cp op2 crm => encodeCdp c op1 crn crd cp op2 crm
  | .mcr c op1 crn rd cp op2 crm => encodeCrt false c op1 crn rd cp op2 crm
  | .mrc c op1 crn rd cp op2 crm => encodeCrt true c op1 crn rd cp op2 crm
  | .swi c imm24 => encodeSwi c imm24
  | .bkpt c imm24 => encodeSwi c imm24

/-- The bytes of an instruction, the lowest address first. -/
def encodeBytes (i : Instr) : List Byte :=
  bytesOfWord (encode i)

end Sys2Proof
end

