-- ==== Sys2Proof/Machine/State.lean ====
section
/-! DEFINITION. The state of the machine as plain data, the reasons a step can stop, and the state after reset. -/

namespace Sys2Proof.Machine

/-! The parts of the state. -/

/-- The general registers of every bank (10_state.md R30, R31), R15 apart. `user` is R0..R14, `fiq` R8_fiq..R14_fiq, `irq`
R13_irq and R14_irq, `svc` R13_svc and R14_svc. -/
structure RegBank where
  user : Vector Word 15
  fiq : Vector Word 7
  irq : Vector Word 2
  svc : Vector Word 2
deriving DecidableEq, Repr

/-- A physical register slot (10_state.md R30, R31): 27 of them. -/
inductive Slot where
  | user (i : Fin 15)
  | fiq (i : Fin 7)
  | irq (i : Fin 2)
  | svc (i : Fin 2)
  | r15
deriving DecidableEq, Repr

/-- The last accepted interrupt call (10_state.md R52). -/
structure InterruptRecord where
  deviceId : Word
  code : Word
deriving DecidableEq, Repr

/-- A present page (20_memory.md R82). The bytes of a RAM page are in `State.mem`; `dev` is an index of
`State.devices`. -/
inductive Page where
  | ram (perm : Perm)
  | device (perm : Perm) (dev : Nat)
deriving DecidableEq, Repr

/-- A registered device (20_memory.md R124): its public id, its interrupt-flag address (stored and never used,
60_exceptions.md R561), which of its five callbacks exist, and the range it was last mapped to. -/
structure Device where
  id : Word
  interruptFlagAddr : Word
  readWord : Bool
  writeWord : Bool
  readByte : Bool
  writeByte : Bool
  operation : Bool
  range : Option (Nat × Nat)
deriving DecidableEq, Repr

/-- A mapping record (20_memory.md R122). -/
structure Mapping where
  dev : Nat
  start : Nat
  stop : Nat
  flags : Word
deriving DecidableEq, Repr

/-- A callback the core makes (20_memory.md R97, R98; 46_swi_coprocessor.md R427): the device's index, the in-page offset
and what is passed. -/
inductive DeviceCall where
  | readWord (dev : Nat) (offset : BitVec pageBits)
  | readByte (dev : Nat) (offset : BitVec pageBits)
  | writeWord (dev : Nat) (offset : BitVec pageBits) (v : Word)
  | writeByte (dev : Nat) (offset : BitVec pageBits) (v : Byte)
  | operation (dev : Nat) (arg1 arg2 : Word)
deriving DecidableEq, Repr

/-- What a device does in a callback: the value it returns, whether it fails (92_eei_decisions.md D46), the `interrupt`
call it makes, if any, and whether it calls `run` or `map_memory` (70_reset_and_hazards.md R613). -/
structure DeviceReply where
  value : Word
  fails : Bool
  interrupt : Option (Word × Word)
  reenters : Bool
deriving DecidableEq, Repr

/-- The machine. The last group of fields is the model's own: `cfg` the parameters of 00_scope.md R11, which no step
changes; `bounded` and `status` the `run` call in progress and the status it returns if it ends now (60_exceptions.md
R550, R551); `draws` how many free values were drawn; `deviceReplies` what the devices will answer, an input;
`deviceCalls` the callbacks made, newest first, an output; `allocFails` whether the host's allocator fails, an input. -/
structure State where
  regs : RegBank
  r15 : Word
  initialized : Bool
  waiting : Bool
  watchHit : Bool
  pinFiq : Bool
  pinIrq : Bool
  lastInterrupt : InterruptRecord
  crHwmgr : Vector Word 16
  crMmu : Vector Word 16
  crIntctl : Vector Word 16
  bp : List Nat
  wr : List Nat
  ww : List Nat
  pages : List (Nat × Page)
  mem : List Host.Cell
  devices : List Device
  mappings : List Mapping
  freeRam : Nat
  cfg : Config
  bounded : Bool
  status : Status
  draws : Nat
  deviceReplies : List DeviceReply
  deviceCalls : List DeviceCall
  allocFails : Bool
deriving DecidableEq, Repr

/-- The faults of the machine: none. Every fault the spec gives the guest is an exception it takes (60_exceptions.md
R500), which is a next state, and what the spec leaves without meaning is a refusal. -/
inductive Fault where
deriving DecidableEq, Repr

/-- The refusals. `notModelled` is raised by an arm of `exec` without a meaning. Every other one is raised by the
instruction its docstring names, in a case the spec itself refuses to give a meaning; each is safe (log entry 14). -/
inductive Refusal where
  /-- An instruction without a meaning in the model (safe). -/
  | notModelled (mnemonic : String)
  /-- MUL, MLA with Rd = Rm (41_multiply.md R264; safe). -/
  | multiplyRdEqRm
  /-- MUL, MLA with R15 as an operand (41_multiply.md R264; safe). -/
  | multiplyR15
  /-- TST, TEQ, CMP, CMN with S = 0 under `TEST_NOS` = refuse (40_data_processing.md R215; safe). -/
  | testWithoutS
  /-- SWP, SWPB with R15 as an operand (42_swap.md R285; safe). -/
  | swapR15
  /-- A post-indexed single transfer with W = 1 under `T_FORMS` = refuse (43_single_transfer.md R301; safe). -/
  | transferTForm
  /-- A single transfer with write-back and Rn = 15 (43_single_transfer.md R307; safe). -/
  | transferWritebackR15
  /-- A load with write-back and Rn = Rd (43_single_transfer.md R307; safe). -/
  | loadWritebackRnEqRd
  /-- A single transfer with R15 as the offset register (43_single_transfer.md R307; safe). -/
  | transferOffsetR15
  /-- LDM, STM with an empty list (44_block_transfer.md R347; safe). -/
  | blockEmptyList
  /-- LDM, STM with write-back and Rn = 15 (44_block_transfer.md R347; safe). -/
  | blockWritebackR15
  /-- LDM, STM with write-back and a user-bank transfer (44_block_transfer.md R347; safe). -/
  | blockWritebackUserBank
  /-- MRC to R15 from a recognised coprocessor (46_swi_coprocessor.md R412; safe). -/
  | mrcR15
  /-- CDP to the MMU coprocessor (46_swi_coprocessor.md R430; safe). -/
  | cdpMmu
  /-- CDP to the interrupt-controller coprocessor (46_swi_coprocessor.md R430; safe). -/
  | cdpIntctl
  /-- A byte store to a device page without `write_byte` (20_memory.md R98; safe). -/
  | deviceByteStore
  /-- A device access that fails under `DEV_FAIL` = refuse (93_implementation_defined.md U41; safe). -/
  | deviceFailure
  /-- A device callback that calls `run` or `map_memory` (70_reset_and_hazards.md R613; safe). -/
  | deviceReenters
deriving DecidableEq, Repr

/-! Reset. -/

/-- The RAM pages of a machine with `n` of them (20_memory.md R90), with their permissions. -/
def ramPages (n : Nat) (perms : Nat → Perm) : List (Nat × Page) :=
  (List.range n).map fun i => (i, .ram (perms i))

namespace State

/-- The machine before any `init`: nothing is initialized and no page is present (70_reset_and_hazards.md R603). -/
def blank (cfg : Config) : State where
  regs := ⟨Vector.replicate 15 0, Vector.replicate 7 0, Vector.replicate 2 0, Vector.replicate 2 0⟩
  r15 := 0x0C000003
  initialized := false
  waiting := false
  watchHit := false
  pinFiq := false
  pinIrq := false
  lastInterrupt := ⟨0, 0⟩
  crHwmgr := Vector.replicate 16 0
  crMmu := Vector.replicate 16 0
  crIntctl := Vector.replicate 16 0
  bp := []
  wr := []
  ww := []
  pages := []
  mem := []
  devices := []
  mappings := []
  freeRam := 0
  cfg := cfg
  bounded := true
  status := .ok
  draws := 0
  deviceReplies := []
  deviceCalls := []
  allocFails := false

/-- The machine right after a successful `init` with `n` pages of RAM (70_reset_and_hazards.md R600, 10_state.md R60):
SVC mode, interrupts masked, PC at vector 0, masks zero, registries empty. What the rule leaves unspecified is zero
(DESIGN CHOICE, log entries 2, 3, 5). -/
def afterInit (cfg : Config) (n : Nat) (perms : Nat → Perm) : State :=
  { blank cfg with initialized := true, pages := ramPages n perms }

/-- The machine right after reset: `init(0x10000)` with every right on every RAM page (DESIGN CHOICE, log entry 4: the
values of 95_test_vectors.md). -/
def reset : State :=
  afterInit Config.std 16 fun _ => ⟨true, true, true⟩

end State

end Sys2Proof.Machine
end

