-- ==== Sys2Proof/Machine/Ops.lean ====
section
/-! DEFINITION. The named operations over registers, R15, memory, pages, devices, interrupts and exceptions. -/

namespace Sys2Proof.Machine

/-! R15 (10_state.md R40 to R47). -/

/-- The mode of an M field (10_state.md R42). -/
def modeOfBits (m : BitVec 2) : Mode :=
  match m.toNat with
  | 0 => .usr
  | 1 => .fiq
  | 2 => .irq
  | _ => .svc

/-- The M field of a mode (10_state.md R42). -/
def modeBits (m : Mode) : BitVec 2 :=
  match m with
  | .usr => 0#2
  | .fiq => 1#2
  | .irq => 2#2
  | .svc => 3#2

/-- The PC field as a byte address: `R15[25:2] : 00` (10_state.md R40). -/
def r15Pc (r : Word) : Addr :=
  (r.extractLsb' 2 24).setWidth addressBits <<< 2

/-- `Full(P)` for the PSR bits of `r` (10_state.md R45). -/
def r15Full (r : Word) (p : Addr) : Word :=
  fieldAt (r.extractLsb' 26 6) 26 ||| fieldAt (p.extractLsb' 2 24) 2 ||| fieldAt (r.extractLsb' 0 2) 0

/-- `NoMode(P)` for the flags of `r` (10_state.md R45). -/
def r15NoMode (r : Word) (p : Addr) : Word :=
  fieldAt (r.extractLsb' 26 6) 26 ||| fieldAt (p.extractLsb' 2 24) 2

/-- `PCOnly(P)` (10_state.md R45). -/
def r15PcOnly (p : Addr) : Word :=
  p.setWidth 32

namespace State

/-- The mode of the machine: M (10_state.md R42). -/
def mode (s : State) : Mode := modeOfBits (s.r15.extractLsb' 0 2)

/-- `pc` (10_state.md R40). -/
def pc (s : State) : Addr := r15Pc s.r15

def flagN (s : State) : Bool := s.r15.getLsbD 31
def flagZ (s : State) : Bool := s.r15.getLsbD 30
def flagC (s : State) : Bool := s.r15.getLsbD 29
def flagV (s : State) : Bool := s.r15.getLsbD 28
def flagI (s : State) : Bool := s.r15.getLsbD 27
def flagF (s : State) : Bool := s.r15.getLsbD 26

/-- `A`, the address of the executing instruction, whose `pc` is A + 4 (10_state.md R43). -/
def instrAddr (s : State) : Addr := s.pc - 4#addressBits

/-- `P` = A + 8, the prefetch value (10_state.md R45). -/
def prefetch (s : State) : Addr := s.pc + 4#addressBits

/-- `WritePC(v)` (10_state.md R46). -/
def writePc (s : State) (v : Word) : State :=
  { s with r15 := r15Full s.r15 (v.setWidth addressBits) }

/-- The advance of the PC field by one word (10_state.md R43, R44). -/
def advancePc (s : State) : State :=
  { s with r15 := r15Full s.r15 (s.pc + 4#addressBits) }

/-- `WriteR15Full(v)` (10_state.md R47). -/
def writeR15Full (s : State) (v : Word) : State :=
  { s with r15 := v }

/-- `WriteR15User(v)` (10_state.md R47). -/
def writeR15User (s : State) (v : Word) : State :=
  { s with r15 := (v &&& s.cfg.userR15WriteMask) ||| (s.r15 &&& ~~~s.cfg.userR15WriteMask) }

/-- `WriteR15S(v)` (10_state.md R47). -/
def writeR15S (s : State) (v : Word) : State :=
  if s.mode = .usr then s.writeR15User v else s.writeR15Full v

/-- `PSRWriteFromResult(res)` (40_data_processing.md R214). -/
def psrWrite (s : State) (res : Word) : State :=
  if s.mode = .usr then
    { s with r15 := fieldAt (res.extractLsb' 28 4) 28 ||| fieldAt (s.r15.extractLsb' 0 28) 0 }
  else
    { s with r15 := fieldAt (res.extractLsb' 26 6) 26 ||| fieldAt (s.r15.extractLsb' 2 24) 2 |||
                    fieldAt (res.extractLsb' 0 2) 0 }

/-- N, Z, C and V written together (10_state.md R48). -/
def setNzcv (s : State) (n z c v : Bool) : State :=
  { s with r15 := fieldAt (bit n) 31 ||| fieldAt (bit z) 30 ||| fieldAt (bit c) 29 ||| fieldAt (bit v) 28 |||
                  fieldAt (s.r15.extractLsb' 0 28) 0 }

end State

/-! The register bank (10_state.md R30 to R36). -/

/-- The effective-register table (10_state.md R32). -/
def slotOf (m : Mode) (r : RegNum) : Slot :=
  if h : r.toNat < 15 then
    match m with
    | .usr => .user ⟨r.toNat, h⟩
    | .fiq => if h8 : r.toNat < 8 then .user ⟨r.toNat, h⟩ else .fiq ⟨r.toNat - 8, by omega⟩
    | .irq => if h13 : r.toNat < 13 then .user ⟨r.toNat, h⟩ else .irq ⟨r.toNat - 13, by omega⟩
    | .svc => if h13 : r.toNat < 13 then .user ⟨r.toNat, h⟩ else .svc ⟨r.toNat - 13, by omega⟩
  else .r15

namespace State

/-- The content of a physical slot. -/
def getSlot (s : State) (k : Slot) : Word :=
  match k with
  | .user i => s.regs.user[i]
  | .fiq i => s.regs.fiq[i]
  | .irq i => s.regs.irq[i]
  | .svc i => s.regs.svc[i]
  | .r15 => s.r15

/-- A physical slot written. -/
def setSlot (s : State) (k : Slot) (v : Word) : State :=
  match k with
  | .user i => { s with regs := { s.regs with user := s.regs.user.set i v } }
  | .fiq i => { s with regs := { s.regs with fiq := s.regs.fiq.set i v } }
  | .irq i => { s with regs := { s.regs with irq := s.regs.irq.set i v } }
  | .svc i => { s with regs := { s.regs with svc := s.regs.svc.set i v } }
  | .r15 => { s with r15 := v }

/-- `x[i]` (10_state.md R35). No rule reads `x[15]`; it is the R15 slot (log entry 16). -/
def reg (s : State) (r : RegNum) : Word := s.getSlot (slotOf s.mode r)

/-- `x[i] <- v` (10_state.md R35). -/
def setReg (s : State) (r : RegNum) (v : Word) : State := s.setSlot (slotOf s.mode r) v

/-- `reg(i, true)`: the user-bank register (44_block_transfer.md R346). -/
def userReg (s : State) (r : RegNum) : Word := s.getSlot (slotOf .usr r)

/-- `reg(i, true) <- v` (44_block_transfer.md R346). -/
def setUserReg (s : State) (r : RegNum) (v : Word) : State := s.setSlot (slotOf .usr r) v

end State

/-! RAM: the canonical list of the bytes that differ from what an unlisted byte reads as. -/

/-- What an unlisted address reads as: 0 (DESIGN CHOICE, log entry 5; the spec leaves RAM before it is written open,
92_eei_decisions.md D54). -/
def initByte : Byte := 0#8

/-- One byte of RAM. -/
def memByte (m : List Host.Cell) (a : Nat) : Byte :=
  match m with
  | [] => initByte
  | (k, b) :: rest => if k = a then b else memByte rest a

/-- One byte of RAM written, the list kept in canonical form. -/
def memSetByte (m : List Host.Cell) (a : Nat) (v : Byte) : List Host.Cell :=
  match m with
  | [] => if v = initByte then [] else [(a, v)]
  | (k, b) :: rest =>
    if a < k then
      if v = initByte then (k, b) :: rest else (a, v) :: (k, b) :: rest
    else if a = k then
      if v = initByte then rest else (a, v) :: rest
    else (k, b) :: memSetByte rest a v

/-- The canonical form: addresses strictly rising and inside the space, no byte equal to what an unlisted one reads as. -/
def Memory.wf (m : List Host.Cell) : Bool :=
  decide (m.Pairwise fun x y => x.1 < y.1) && m.all fun x => decide (x.1 < spaceBytes) && decide (x.2 ≠ initByte)

/-- The little-endian word at a multiple of 4 (20_memory.md R85). -/
def memWord (m : List Host.Cell) (a : Nat) : Word :=
  wordOfBytes (memByte m a) (memByte m (a + 1)) (memByte m (a + 2)) (memByte m (a + 3))

/-- A word written little-endian at a multiple of 4 (20_memory.md R85). -/
def memSetWord (m : List Host.Cell) (a : Nat) (v : Word) : List Host.Cell :=
  memSetByte (memSetByte (memSetByte (memSetByte m a (byteOfWord v 0)) (a + 1) (byteOfWord v 1))
    (a + 2) (byteOfWord v 2)) (a + 3) (byteOfWord v 3)

/-! Masks: one bit a word, held as the rising list of the set bits' indexes (10_state.md R54). -/

/-- The bit of the word that holds `a` (20_memory.md R100). -/
def maskBit (m : List Nat) (a : Addr) : Bool :=
  m.contains (a.toNat / 4)

/-- An index set. -/
def maskInsert (m : List Nat) (k : Nat) : List Nat :=
  match m with
  | [] => [k]
  | j :: rest => if k < j then k :: j :: rest else if k = j then j :: rest else j :: maskInsert rest k

/-- The bit of `a` set (60_exceptions.md R545). -/
def maskSet (m : List Nat) (a : Addr) : List Nat :=
  maskInsert m (a.toNat / 4)

/-- The bit of `a` cleared (60_exceptions.md R545). -/
def maskClear (m : List Nat) (a : Addr) : List Nat :=
  m.filter fun j => j ≠ a.toNat / 4

/-- The canonical form of a mask: indexes strictly rising, each of a word of the space. -/
def maskWf (m : List Nat) : Bool :=
  decide (m.Pairwise (· < ·)) && m.all fun j => decide (j < wordCount)

/-! The page table (20_memory.md R82, R91 to R93). -/

/-- The descriptor of a page index; `none` is an absent page. -/
def pageAt (t : List (Nat × Page)) (i : Nat) : Option Page :=
  match t with
  | [] => none
  | (j, p) :: rest => if j = i then some p else pageAt rest i

/-- A descriptor installed, the list kept rising. -/
def setPage (t : List (Nat × Page)) (i : Nat) (p : Page) : List (Nat × Page) :=
  match t with
  | [] => [(i, p)]
  | (j, q) :: rest =>
    if i < j then (i, p) :: (j, q) :: rest
    else if i = j then (i, p) :: rest
    else (j, q) :: setPage rest i p

/-- The canonical form of a page table: indexes strictly rising, each of a page of the space. -/
def pagesWf (t : List (Nat × Page)) : Bool :=
  decide (t.Pairwise fun x y => x.1 < y.1) && t.all fun x => decide (x.1 < pageCount)

/-- The rights of a page. -/
def Page.perm (p : Page) : Perm :=
  match p with
  | .ram q => q
  | .device q _ => q

/-- The kinds of access (20_memory.md R93). -/
inductive AccessKind where
  | fetch | read | write
deriving DecidableEq, Repr

/-- `need subset d.perm` for the right an access needs (20_memory.md R92, R93). -/
def permAllows (cfg : Config) (kind : AccessKind) (p : Perm) : Bool :=
  match kind with
  | .read => p.r
  | .write => p.w
  | .fetch => (!cfg.fetchPerm.r || p.r) && (!cfg.fetchPerm.w || p.w) && (!cfg.fetchPerm.x || p.x)

/-- The index of the page that holds `a` (20_memory.md R82). -/
def pageOf (a : Addr) : Nat :=
  a.toNat / pageBytes

/-- `Walk(kind, a, n)` (20_memory.md R93); `word` is n = 4; `none` is `Fault`. -/
def walk (s : State) (kind : AccessKind) (a : Addr) (word : Bool) : Option Page :=
  match pageAt s.pages (pageOf a) with
  | none => none
  | some p =>
    if s.cfg.permCheckModes.contains s.mode && !permAllows s.cfg kind p.perm then none
    else if word && a.extractLsb' 0 2 ≠ 0#2 then none
    else some p

/-! Interrupt injection (60_exceptions.md R531). -/

namespace State

/-- The mask of the pin `interrupt` drives. -/
def interruptMask (s : State) : Bool :=
  match s.cfg.interruptPin with
  | .irq => s.flagI
  | .fiq => s.flagF

/-- `interrupt(device_id, code)` (60_exceptions.md R531): dropped when the mask is set or a pin is. -/
def interrupt (s : State) (deviceId code : Word) : State :=
  if s.interruptMask || s.pinIrq || s.pinFiq then s
  else
    match s.cfg.interruptPin with
    | .irq => { s with pinIrq := true, lastInterrupt := ⟨deviceId, code⟩ }
    | .fiq => { s with pinFiq := true, lastInterrupt := ⟨deviceId, code⟩ }

end State

/-! Accesses (20_memory.md R94 to R98). -/

/-- How an access ends: with a value, with an abort, or in a case the spec refuses. The state holds what the devices did. -/
inductive Access (α : Type) where
  | done (v : α) (s : State)
  | abort (s : State)
  | refused (r : Refusal)

/-- The reply no input fixes: free values (log entry 9). -/
def freeReply (n : Nat) : DeviceReply where
  value := Config.deviceWord n
  fails := Config.deviceFails n
  interrupt := Config.deviceInterrupt n
  reenters := false

/-- The next device reply, and the state without it. -/
def nextReply (s : State) : DeviceReply × State :=
  match s.deviceReplies with
  | r :: rest => (r, { s with deviceReplies := rest })
  | [] => (freeReply s.draws, { s with draws := s.draws + 1 })

/-- The `interrupt` call of a reply, if it makes one (60_exceptions.md R531). -/
def replyInterrupt (r : DeviceReply) (s : State) : State :=
  match r.interrupt with
  | some (deviceId, code) => s.interrupt deviceId code
  | none => s

/-- A callback made: the call is recorded and the device's reply takes effect (20_memory.md R97, R101;
70_reset_and_hazards.md R613). -/
def callDevice (call : DeviceCall) (s : State) : Access Word :=
  if (nextReply s).1.reenters then .refused .deviceReenters
  else
    let t := replyInterrupt (nextReply s).1
      { (nextReply s).2 with deviceCalls := call :: (nextReply s).2.deviceCalls }
    if (nextReply s).1.fails then .abort t else .done (nextReply s).1.value t

/-- The in-page offset (20_memory.md R97). -/
def pageOffset (a : Addr) : BitVec pageBits :=
  a.extractLsb' 0 pageBits

/-- A device access that fails (`DEV_FAIL`; 20_memory.md R97, R98). -/
def deviceFailed (s : State) : Access Word :=
  match s.cfg.devFail with
  | .abort => .abort s
  | .refuse => .refused .deviceFailure

/-- An access through a callback that exists: it fails if the callback does (92_eei_decisions.md D46). -/
def deviceAccess (call : DeviceCall) (s : State) : Access Word :=
  match callDevice call s with
  | .done v t => .done v t
  | .abort t => deviceFailed t
  | .refused r => .refused r

/-- `DevRead(d, n, a)` (20_memory.md R97). A missing callback is a failure. -/
def devRead (dev : Nat) (word : Bool) (a : Addr) (s : State) : Access Word :=
  match s.devices[dev]? with
  | none => deviceFailed s
  | some d =>
    if word then
      if d.readWord then deviceAccess (.readWord dev (pageOffset a)) s else deviceFailed s
    else if d.readByte then
      match deviceAccess (.readByte dev (pageOffset a)) s with
      | .done v t => .done (fieldAt (v.extractLsb' 0 8) 0) t
      | .abort t => .abort t
      | .refused r => .refused r
    else deviceFailed s

/-- `DevWrite(d, n, a, v)` (20_memory.md R98). A missing `write_word` is a failure; a missing `write_byte` is refused. -/
def devWrite (dev : Nat) (word : Bool) (a : Addr) (v : Word) (s : State) : Access Word :=
  match s.devices[dev]? with
  | none => deviceFailed s
  | some d =>
    if word then
      if d.writeWord then deviceAccess (.writeWord dev (pageOffset a) v) s else deviceFailed s
    else if d.writeByte then deviceAccess (.writeByte dev (pageOffset a) (v.extractLsb' 0 8)) s
    else .refused .deviceByteStore

/-- The mark of a data read (20_memory.md R100). -/
def markRead (a : Addr) (s : State) : State :=
  if maskBit s.wr a then { s with watchHit := true } else s

/-- The mark of a data write (20_memory.md R100). -/
def markWrite (a : Addr) (s : State) : State :=
  if maskBit s.ww a then { s with watchHit := true } else s

/-- What RAM holds at `a`: the word, or the byte zero-extended (20_memory.md R95). -/
def ramRead (e : Endian) (m : List Host.Cell) (word : Bool) (a : Addr) : Word :=
  match e with
  | .little => if word then memWord m a.toNat else fieldAt (memByte m a.toNat) 0

/-- RAM written at `a` (20_memory.md R96). -/
def ramWrite (e : Endian) (m : List Host.Cell) (word : Bool) (a : Addr) (v : Word) : List Host.Cell :=
  match e with
  | .little => if word then memSetWord m a.toNat v else memSetByte m a.toNat (v.extractLsb' 0 8)

/-- `MemRead(a, n)` (20_memory.md R95). -/
def memRead (word : Bool) (a : Addr) (s : State) : Access Word :=
  match walk s .read a word with
  | none => .abort s
  | some (.ram _) => .done (ramRead s.cfg.endian s.mem word a) (markRead a s)
  | some (.device _ dev) =>
    match devRead dev word a s with
    | .done v t => .done v (markRead a t)
    | .abort t => .abort t
    | .refused r => .refused r

/-- `MemWrite(a, n, v)` (20_memory.md R96). -/
def memWrite (word : Bool) (a : Addr) (v : Word) (s : State) : Access Unit :=
  match walk s .write a word with
  | none => .abort s
  | some (.ram _) => .done () (markWrite a { s with mem := ramWrite s.cfg.endian s.mem word a v })
  | some (.device _ dev) =>
    match devWrite dev word a v s with
    | .done _ t => .done () (markWrite a t)
    | .abort t => .abort t
    | .refused r => .refused r

/-- `Fetch(a)` (20_memory.md R94): no watchpoint mark. -/
def fetch (a : Addr) (s : State) : Access Word :=
  match walk s .fetch a true with
  | none => .abort s
  | some (.ram _) => .done (ramRead s.cfg.endian s.mem true a) s
  | some (.device _ dev) => devRead dev true a s

/-! Taking an exception (60_exceptions.md R500 to R511). -/

/-- The exception kinds that have a vector (60_exceptions.md R500, R501). The ninth kind, Breakpoint, has none; the run
loop resolves it (R510, R542). -/
inductive ExcKind where
  | reset | undefinedInstruction | softwareInterrupt | prefetchAbort | dataAbort | addressException | irq | fiq
deriving DecidableEq, Repr

/-- A row of the exception table (60_exceptions.md R501). -/
structure ExcEntry where
  mode : Mode
  vector : Addr
  setsF : Bool
  saves : Bool
deriving DecidableEq, Repr

/-- The exception table (60_exceptions.md R501). Every kind sets I. -/
def excEntry (k : ExcKind) : ExcEntry :=
  match k with
  | .reset => ⟨.svc, 0x00#addressBits, true, false⟩
  | .undefinedInstruction => ⟨.svc, 0x04#addressBits, false, true⟩
  | .softwareInterrupt => ⟨.svc, 0x08#addressBits, false, true⟩
  | .prefetchAbort => ⟨.svc, 0x0C#addressBits, false, true⟩
  | .dataAbort => ⟨.svc, 0x10#addressBits, false, true⟩
  | .addressException => ⟨.svc, 0x14#addressBits, false, true⟩
  | .irq => ⟨.irq, 0x18#addressBits, false, true⟩
  | .fiq => ⟨.fiq, 0x1C#addressBits, true, true⟩

/-- R15 on entry by a row of the table: N, Z, C, V kept, I set, F set if the row says so, the vector, the mode
(60_exceptions.md R511). -/
def entryR15 (e : ExcEntry) (old : Word) : Word :=
  fieldAt (old.extractLsb' 28 4) 28 ||| fieldAt 1#1 27 ||| fieldAt (bit (e.setsF || old.getLsbD 26)) 26 |||
  fieldAt (e.vector.extractLsb' 2 24) 2 ||| fieldAt (modeBits e.mode) 0

/-- A pin after the entry of `k`, where `own` is the kind of its interrupt (60_exceptions.md R532). -/
def pinAfter (clear : PinClear) (own k : ExcKind) (pin : Bool) : Bool :=
  match clear with
  | .onEntry => if k = own then false else pin

/-- What `LINK_VALUE` adds to the address of the instruction (60_exceptions.md R501). -/
def linkOffset (cfg : Config) (k : ExcKind) : Addr :=
  match k with
  | .reset => 0#addressBits
  | .undefinedInstruction => cfg.linkValue.undefinedInstruction
  | .softwareInterrupt => cfg.linkValue.softwareInterrupt
  | .prefetchAbort => cfg.linkValue.prefetchAbort
  | .dataAbort => 0#addressBits
  | .addressException => cfg.linkValue.addressException
  | .irq => cfg.linkValue.irq
  | .fiq => cfg.linkValue.fiq

/-- `Enter(k, L)` (60_exceptions.md R511): the link goes to R14 of the mode entered, and the pin of an interrupt is cleared
(R532). -/
def enter (k : ExcKind) (link : Addr) (s : State) : State :=
  let e := excEntry k
  let t := if e.saves then s.setSlot (slotOf e.mode 14#4) (r15Full s.r15 link) else s
  { t with
    r15 := entryR15 e s.r15
    pinIrq := pinAfter s.cfg.pinClear .irq k s.pinIrq
    pinFiq := pinAfter s.cfg.pinClear .fiq k s.pinFiq }

/-- An exception of the executing instruction: `watch_hit` is cleared and the kind entered (60_exceptions.md R550, R512). -/
def raise (k : ExcKind) (link : Addr) (s : State) : State :=
  enter k link { s with watchHit := false }

/-- An exception of the executing instruction with the link `LINK_VALUE` gives it (60_exceptions.md R501). -/
def raiseHere (k : ExcKind) (s : State) : State :=
  raise k (s.instrAddr + linkOffset s.cfg k) s

/-! Returning from an exception: there is no return instruction; a handler writes R15 with `writeR15S`
(60_exceptions.md R514), by a flag-setting data-processing instruction or by LDM with R15 and the S bit. -/

/-! Breakpoints (60_exceptions.md R540 to R542). -/

/-- A Breakpoint resolved: a bounded run returns breakpoint-hit with the PC field at `halt`; an unbounded run takes a
software interrupt whose link is `link` (60_exceptions.md R542). -/
def resolveBreakpoint (halt link : Addr) (s : State) : State :=
  if s.bounded then { s with r15 := r15Full s.r15 halt, status := .breakpointHit }
  else enter .softwareInterrupt link s

/-- A Breakpoint taken as if the word at `a` were a SWI (60_exceptions.md R542; 92_eei_decisions.md D41). -/
def breakAt (a : Addr) (s : State) : State :=
  resolveBreakpoint a (a + linkOffset s.cfg .softwareInterrupt) s

/-- The Breakpoint of the executing instruction, BKPT at A (60_exceptions.md R542, R550). -/
def raiseBreakpoint (s : State) : State :=
  breakAt s.instrAddr { s with watchHit := false }

/-! Coprocessor registers (10_state.md R53). -/

/-- The virtual coprocessors (46_swi_coprocessor.md R410). -/
inductive Coproc where
  | hwmgr | mmu | intctl
deriving DecidableEq, Repr

/-- The coprocessor a number names, if any (46_swi_coprocessor.md R410). -/
def coprocOf (cfg : Config) (cp : BitVec 4) : Option Coproc :=
  if cp = cfg.cpHwmgr then some .hwmgr
  else if cp = cfg.cpMmu then some .mmu
  else if cp = cfg.cpIntctl then some .intctl
  else none

namespace State

/-- `CR_cp[n]`. -/
def cr (s : State) (cp : Coproc) (n : CrNum) : Word :=
  match cp with
  | .hwmgr => s.crHwmgr[n.toNat]
  | .mmu => s.crMmu[n.toNat]
  | .intctl => s.crIntctl[n.toNat]

/-- `CR_cp[n] <- v`. -/
def setCr (s : State) (cp : Coproc) (n : CrNum) (v : Word) : State :=
  match cp with
  | .hwmgr => { s with crHwmgr := s.crHwmgr.set n.toNat v }
  | .mmu => { s with crMmu := s.crMmu.set n.toNat v }
  | .intctl => { s with crIntctl := s.crIntctl.set n.toNat v }

end State

/-! Mapping memory (20_memory.md R120 to R123). -/

/-- `STATUS_VALUE(status)` (20_memory.md R125). -/
def statusValue (cfg : Config) (st : Status) : Word :=
  match st with
  | .ok => cfg.statusValues[0]
  | .invalidArguments => cfg.statusValues[1]
  | .invalidCpuState => cfg.statusValues[2]
  | .valueError => cfg.statusValues[3]
  | .memoryError => cfg.statusValues[4]
  | .ioError => cfg.statusValues[5]
  | .invalidPage => cfg.statusValues[6]
  | .alreadyMapped => cfg.statusValues[7]
  | .noSuchDevice => cfg.statusValues[8]
  | .maxHardwareDevicesExceeded => cfg.statusValues[9]
  | .deviceError => cfg.statusValues[10]
  | .unknownOpcode => cfg.statusValues[11]
  | .breakpointHit => cfg.statusValues[12]
  | .waitForInterrupt => cfg.statusValues[13]
  | .internalConsistencyFailure => cfg.statusValues[14]

/-- Whether a page may be claimed: it is unmapped, or mapped and callback-free (20_memory.md R121). -/
def claimable (t : List (Nat × Page)) (i : Nat) : Bool :=
  match pageAt t i with
  | some (.device ..) => false
  | some (.ram _) => true
  | none => true

/-- A page claimed for a device: a RAM page keeps its permissions, a new one has `newPagePerm` (log entry 13). -/
def claimPage (cfg : Config) (dev : Nat) (t : List (Nat × Page)) (i : Nat) : List (Nat × Page) :=
  match pageAt t i with
  | some p => setPage t i (.device p.perm dev)
  | none => setPage t i (.device cfg.newPagePerm dev)

/-- The pages of [start, stop) (20_memory.md R120). -/
def pagesOfRange (start stop : Nat) : List Nat :=
  (List.range (stop / pageBytes - start / pageBytes)).map (start / pageBytes + ·)

/-- The checks on a range: page-aligned, of non-zero length, in range (20_memory.md R120). -/
def rangeOk (start stop : Nat) : Bool :=
  decide (start % pageBytes = 0) && decide (stop % pageBytes = 0) && decide (start < stop) && decide (stop ≤ spaceBytes)

/-- `map_memory(device k, start, end)` (20_memory.md R120 to R123; 46_swi_coprocessor.md R422): its status and the state
after it, which is the state before it unless the status is OK. -/
def mapMemory (k start stop : Nat) (s : State) : Status × State :=
  match s.devices[k]? with
  | none => (.noSuchDevice, s)
  | some d =>
    if !rangeOk start stop then (s.cfg.badRangeStatus, s)
    else if !(pagesOfRange start stop).all (claimable s.pages) then (.alreadyMapped, s)
    else if s.allocFails then (.memoryError, s)
    else
      (.ok, { s with
        pages := (pagesOfRange start stop).foldl (claimPage s.cfg k) s.pages
        devices := s.devices.set k { d with range := some (start, stop) }
        mappings := ⟨k, start, stop, Config.mappingFlags s.draws⟩ :: s.mappings
        draws := s.draws + 1 })

end Sys2Proof.Machine
end

