-- ==== Sys2Proof/Machine/Flags.lean ====
section
/-! DEFINITION. The condition evaluator and every flag computation. -/

namespace Sys2Proof.Machine

/-- The condition table (30_encoding.md R144, R145). -/
def condHolds (c : Cond) (n z cf v : Bool) : Bool :=
  match c with
  | .eq => z
  | .ne => !z
  | .cs => cf
  | .cc => !cf
  | .mi => n
  | .pl => !n
  | .vs => v
  | .vc => !v
  | .hi => cf && !z
  | .ls => !cf || z
  | .ge => n == v
  | .lt => n != v
  | .gt => !z && n == v
  | .le => z || n != v
  | .al => true
  | .nv => false

/-- `Cond(c)` on the flags as they stand (30_encoding.md R144). -/
def State.passes (s : State) (c : Cond) : Bool :=
  condHolds c s.flagN s.flagZ s.flagC s.flagV

/-- An instruction behind its condition: when it fails, nothing happens (30_encoding.md R141). -/
def whenPasses (c : Cond) (s : State) (o : Host.Outcome State Fault Refusal) : Host.Outcome State Fault Refusal :=
  if s.passes c then o else .next s

/-- A result with the carry and the overflow it leaves. -/
structure AluResult where
  res : Word
  c : Bool
  v : Bool
deriving DecidableEq, Repr

/-- `AddWithCarry(a, b, cin)` (40_data_processing.md R206): the carry is bit 32 of the exact sum. -/
def addWithCarry (a b : Word) (cin : Bool) : AluResult :=
  let t : BitVec 64 := a.setWidth 64 + b.setWidth 64 + (BitVec.ofBool cin).setWidth 64
  let res : Word := t.setWidth 32
  { res := res
    c := t.getLsbD 32
    v := decide (((a ^^^ b ^^^ 0x80000000#32) &&& (a ^^^ res) &&& 0x80000000#32) ≠ 0#32) }

/-- Whether an operation is one of TST, TEQ, CMP, CMN, which write no register (30_encoding.md R164). -/
def DpOp.isTest (op : DpOp) : Bool :=
  match op with
  | .tst | .teq | .cmp | .cmn => true
  | .and | .eor | .sub | .rsb | .add | .adc | .sbc | .rsc | .orr | .mov | .bic | .mvn => false

/-- The result of a data-processing operation with the C and V a flag-setting form leaves (30_encoding.md R164;
40_data_processing.md R207 to R209): `sc` is the shifter carry, `c` and `v` the flags before. -/
def dpCompute (op : DpOp) (a op2 : Word) (sc c v : Bool) : AluResult :=
  match op with
  | .and => ⟨a &&& op2, sc, v⟩
  | .eor => ⟨a ^^^ op2, sc, v⟩
  | .sub => addWithCarry a (~~~op2) true
  | .rsb => addWithCarry op2 (~~~a) true
  | .add => addWithCarry a op2 false
  | .adc => addWithCarry a op2 c
  | .sbc => addWithCarry a (~~~op2) c
  | .rsc => addWithCarry op2 (~~~a) c
  | .tst => ⟨a &&& op2, sc, v⟩
  | .teq => ⟨a ^^^ op2, sc, v⟩
  | .cmp => addWithCarry a (~~~op2) true
  | .cmn => addWithCarry a op2 false
  | .orr => ⟨a ||| op2, sc, v⟩
  | .mov => ⟨op2, sc, v⟩
  | .bic => ⟨a &&& ~~~op2, sc, v⟩
  | .mvn => ⟨~~~op2, sc, v⟩

/-- The flags of a flag-setting operation (40_data_processing.md R208, R209): N and Z from the result, C and V as
computed. -/
def State.setAluFlags (s : State) (r : AluResult) : State :=
  s.setNzcv (r.res.getLsbD 31) (decide (r.res = 0#32)) r.c r.v

/-- The flags of a flag-setting multiply (41_multiply.md R261): N and Z from the result, C a free value, V unchanged. -/
def State.setMulFlags (s : State) (res : Word) : State :=
  { s.setNzcv (res.getLsbD 31) (decide (res = 0#32)) (Config.mulCarry s.draws) s.flagV with draws := s.draws + 1 }

end Sys2Proof.Machine
end

