-- ==== Sys2Proof/Machine/Operands.lean ====
section
/-! DEFINITION. The barrel shifter and every operand form. -/

namespace Sys2Proof.Machine

/-! The barrel shifter (40_data_processing.md R200 to R204): a result and a carry-out. -/

/-- The immediate form: `amt` is `shamt`. -/
def shiftImm (sh : ShiftType) (amt : BitVec 5) (v : Word) (cin : Bool) : Word × Bool :=
  let n := amt.toNat
  match sh with
  | .lsl => if n = 0 then (v, cin) else (v <<< n, v.getLsbD (32 - n))
  | .lsr => if n = 0 then (0#32, v.getLsbD 31) else (v >>> n, v.getLsbD (n - 1))
  | .asr => if n = 0 then (v.sshiftRight 31, v.getLsbD 31) else (v.sshiftRight n, v.getLsbD (n - 1))
  | .ror => if n = 0 then (fieldAt (bit cin) 31 ||| v >>> 1, v.getLsbD 0) else (v.rotateRight n, v.getLsbD (n - 1))

/-- The register form: `amt` is the low byte of Rs. -/
def shiftReg (sh : ShiftType) (amt : BitVec 8) (v : Word) (cin : Bool) : Word × Bool :=
  let n := amt.toNat
  if n = 0 then (v, cin)
  else
    match sh with
    | .lsl =>
      if n < 32 then (v <<< n, v.getLsbD (32 - n)) else if n = 32 then (0#32, v.getLsbD 0) else (0#32, false)
    | .lsr =>
      if n < 32 then (v >>> n, v.getLsbD (n - 1)) else if n = 32 then (0#32, v.getLsbD 31) else (0#32, false)
    | .asr => if n < 32 then (v.sshiftRight n, v.getLsbD (n - 1)) else (v.sshiftRight 31, v.getLsbD 31)
    | .ror => if n % 32 = 0 then (v, v.getLsbD 31) else (v.rotateRight (n % 32), v.getLsbD (n % 32 - 1))

namespace State

/-! R15 as an operand (10_state.md R45). -/

/-- Rn of a data-processing instruction, and the base of LDR, STR, LDM and STM: `PCOnly(P)` for R15. -/
def readBase (s : State) (r : RegNum) : Word :=
  if r = 15#4 then r15PcOnly s.prefetch else s.reg r

/-- Rm of an immediate-shift operand, Rd of STR and of MCR, R15 in an STM list: `Full(P)` for R15. -/
def readFull (s : State) (r : RegNum) : Word :=
  if r = 15#4 then r15Full s.r15 s.prefetch else s.reg r

/-- Rm and Rs of a register-specified shift: `NoMode(P)` for R15. -/
def readNoMode (s : State) (r : RegNum) : Word :=
  if r = 15#4 then r15NoMode s.r15 s.prefetch else s.reg r

end State

/-! The second operand of a data-processing instruction and its shifter carry (40_data_processing.md R205). -/

/-- DP-imm (30_encoding.md R165). -/
def op2Imm (rot : BitVec 4) (imm8 : BitVec 8) (s : State) : Word × Bool :=
  let v : Word := (imm8.setWidth 32).rotateRight (2 * rot.toNat)
  (v, if rot = 0#4 then s.flagC else v.getLsbD 31)

/-- DP-rsi. -/
def op2Rsi (shamt : BitVec 5) (sh : ShiftType) (rm : RegNum) (s : State) : Word × Bool :=
  shiftImm sh shamt (s.readFull rm) s.flagC

/-- DP-rsr. -/
def op2Rsr (rs : RegNum) (sh : ShiftType) (rm : RegNum) (s : State) : Word × Bool :=
  shiftReg sh ((s.readNoMode rs).extractLsb' 0 8) (s.readNoMode rm) s.flagC

/-! The offset of a single data transfer (30_encoding.md R167; 43_single_transfer.md R300). -/

/-- SDT-imm. -/
def offsetImm (imm12 : BitVec 12) : Word :=
  imm12.setWidth 32

/-- SDT-reg: the shifter's value, its carry discarded. -/
def offsetReg (shamt : BitVec 5) (sh : ShiftType) (rm : RegNum) (s : State) : Word :=
  (shiftImm sh shamt (s.reg rm) s.flagC).1

/-- `moved`: base plus or minus offset (43_single_transfer.md R300). -/
def movedAddr (uf : Bool) (base offset : Word) : Word :=
  if uf then base + offset else base - offset

/-- `addr`: the moved address when pre-indexed, the base when post-indexed (43_single_transfer.md R300). -/
def transferAddr (pf uf : Bool) (base offset : Word) : Word :=
  if pf then movedAddr uf base offset else base

/-- Whether a computed address names a byte: no bit above the address bus is set (20_memory.md R81). -/
def onBus (a : Word) : Bool :=
  decide (a >>> addressBits = 0#32)

/-- The bus address of a computed one (20_memory.md R81). -/
def busAddr (a : Word) : Addr :=
  a.setWidth addressBits

/-! The register list and addresses of a block transfer (44_block_transfer.md R340, R342; 30_encoding.md R169). -/

/-- The selected registers in increasing number. -/
def listedRegs (reglist : BitVec 16) : List RegNum :=
  ((List.range 16).filter fun i => reglist.getLsbD i).map (BitVec.ofNat 4 ·)

/-- `4n` for a list of `n` registers. -/
def blockBytes (reglist : BitVec 16) : Word :=
  BitVec.ofNat 32 (4 * (listedRegs reglist).length)

/-- `start`, the lowest address used. -/
def blockStart (pf uf : Bool) (base : Word) (reglist : BitVec 16) : Word :=
  match pf, uf with
  | false, true => base
  | true, true => base + 4#32
  | false, false => base - blockBytes reglist + 4#32
  | true, false => base - blockBytes reglist

/-- `wbval`, the write-back value. -/
def blockWriteback (uf : Bool) (base : Word) (reglist : BitVec 16) : Word :=
  if uf then base + blockBytes reglist else base - blockBytes reglist

/-! The branch target (45_branch.md R380; 30_encoding.md R168). -/

/-- `(A + 8 + (sext_32(offset24) << 2)) mod 2^26`. -/
def branchTarget (offset24 : BitVec 24) (s : State) : Addr :=
  s.prefetch + ((offset24.signExtend 32) <<< 2).setWidth addressBits

end Sys2Proof.Machine
end

