-- ==== Sys2Proof/Machine/BlockTransfer.lean ====
section
/-! DEFINITION. Block data transfer (44_block_transfer.md R340 to R353). -/

namespace Sys2Proof.Machine

/-- `ub`: whether the transfer uses the user bank (44_block_transfer.md R346). -/
def usesUserBank (meaning : BlockS) (load sf : Bool) (reglist : BitVec 16) : Bool :=
  match meaning with
  | .arm2 => sf && !(load && reglist.getLsbD 15)

/-- The refusals of a block transfer (44_block_transfer.md R347), and otherwise nothing. -/
def bdtRefusal (meaning : BlockS) (load sf wf : Bool) (rn : RegNum) (reglist : BitVec 16) : Option Refusal :=
  if reglist = 0#16 then some .blockEmptyList
  else if wf && decide (rn = 15#4) then some .blockWritebackR15
  else if wf && usesUserBank meaning load sf reglist then some .blockWritebackUserBank
  else none

/-- `reg(i, ub)` (44_block_transfer.md R346). -/
def blockReg (ub : Bool) (i : RegNum) (s : State) : Word :=
  if ub then s.userReg i else s.reg i

/-- `reg(i, ub) <- v` (44_block_transfer.md R346). -/
def setBlockReg (ub : Bool) (i : RegNum) (v : Word) (s : State) : State :=
  if ub then s.setUserReg i v else s.setReg i v

/-- The value STM stores for register `i` (44_block_transfer.md R344, R346, R349): the base before write-back when Rn is the
first register stored, `Full(A + 8)` for R15. -/
def stmValue (ub wf first : Bool) (rn i : RegNum) (base : Word) (s : State) : Word :=
  if i = 15#4 then s.readFull i
  else if decide (i = rn) && first && wf then base
  else blockReg ub i s

/-- The loop of STM (44_block_transfer.md R348, R349): the running address advances by 4 a register; after an abort nothing
is stored. It ends in an abort if any access aborted. -/
def stmLoop (ub wf : Bool) (rn : RegNum) (base : Word) (regs : List RegNum) (a : Word) (first : Bool) (s : State) :
    Access Unit :=
  match regs with
  | [] => .done () s
  | i :: rest =>
    match memWrite true (busAddr a) (stmValue ub wf first rn i base s) s with
    | .done _ t => stmLoop ub wf rn base rest (a + 4#32) false t
    | .abort t => .abort t
    | .refused r => .refused r

/-- A value LDM loads into register `i` (44_block_transfer.md R346, R349). -/
def ldmInto (ub sf : Bool) (i : RegNum) (v : Word) (s : State) : State :=
  if i = 15#4 then
    match s.cfg.blockS with
    | .arm2 => if sf then s.writeR15S v else s.writePc v
  else setBlockReg ub i v s

/-- The loop of LDM (44_block_transfer.md R348, R349): after an abort the loads go on under `LDM_AFTER_ABORT` = continue,
except that R15 is never loaded. It ends in an abort if any access aborted. -/
def ldmLoop (ub sf : Bool) (regs : List RegNum) (a : Word) (aborted : Bool) (s : State) : Access Unit :=
  match regs with
  | [] => if aborted then .abort s else .done () s
  | i :: rest =>
    if aborted && (decide (i = 15#4) || !s.cfg.ldmContinuesAfterAbort) then ldmLoop ub sf rest (a + 4#32) aborted s
    else
      match memRead true (busAddr a) s with
      | .done v t => ldmLoop ub sf rest (a + 4#32) aborted (ldmInto ub sf i v t)
      | .abort t => ldmLoop ub sf rest (a + 4#32) true t
      | .refused r => .refused r

/-- The end of a block transfer: DataAbort once if any access aborted (44_block_transfer.md R348). -/
def bdtFinish (link : Addr) (r : Access Unit) : Host.Outcome State Fault Refusal :=
  match r with
  | .done _ t => .next t
  | .abort t => .next (raise .dataAbort link t)
  | .refused r => .refused r

/-- The write-back, made before the first transfer (44_block_transfer.md R344). -/
def bdtWriteback (uf wf : Bool) (rn : RegNum) (reglist : BitVec 16) (s : State) : State :=
  if wf then s.setReg rn (blockWriteback uf (s.readBase rn) reglist) else s

/-- `BDTExec` (44_block_transfer.md R349). -/
def bdtExec (load pf uf sf wf : Bool) (rn : RegNum) (reglist : BitVec 16) (s : State) :
    Host.Outcome State Fault Refusal :=
  match bdtRefusal s.cfg.blockS load sf wf rn reglist with
  | some r => .refused r
  | none =>
    let ub := usesUserBank s.cfg.blockS load sf reglist
    let base := s.readBase rn
    let start := blockStart pf uf base reglist
    let t := bdtWriteback uf wf rn reglist s
    if load then bdtFinish (s.instrAddr + linkOffset s.cfg .dataAbort) (ldmLoop ub sf (listedRegs reglist) start false t)
    else bdtFinish (s.instrAddr + linkOffset s.cfg .dataAbort) (stmLoop ub wf rn base (listedRegs reglist) start true t)

/-- STM (44_block_transfer.md R351). -/
def execStm (c : Cond) (pf uf sf wf : Bool) (rn : RegNum) (reglist : BitVec 16) (s : State) :
    Host.Outcome State Fault Refusal :=
  whenPasses c s (bdtExec false pf uf sf wf rn reglist s)

/-- LDM (44_block_transfer.md R350). -/
def execLdm (c : Cond) (pf uf sf wf : Bool) (rn : RegNum) (reglist : BitVec 16) (s : State) :
    Host.Outcome State Fault Refusal :=
  whenPasses c s (bdtExec true pf uf sf wf rn reglist s)

end Sys2Proof.Machine
end

