-- ==== Sys2Proof/Machine/Branch.lean ====
section
/-! DEFINITION. The branches (45_branch.md R380 to R383). -/

namespace Sys2Proof.Machine

/-- The branch taken: `WritePC(target)` (45_branch.md R380). -/
def branchTo (offset24 : BitVec 24) (s : State) : State :=
  s.writePc ((branchTarget offset24 s).setWidth 32)

/-- The link saved: `x[14] <- Full(A + 4)` (45_branch.md R381). -/
def saveLink (s : State) : State :=
  s.setReg 14#4 (r15Full s.r15 s.pc)

/-- B (45_branch.md R382). -/
def execB (c : Cond) (offset24 : BitVec 24) (s : State) : Host.Outcome State Fault Refusal :=
  whenPasses c s (.next (branchTo offset24 s))

/-- BL (45_branch.md R383): the link is saved before the PC is changed. -/
def execBl (c : Cond) (offset24 : BitVec 24) (s : State) : Host.Outcome State Fault Refusal :=
  whenPasses c s (.next (branchTo offset24 (saveLink s)))

end Sys2Proof.Machine
end

