-- ==== Sys2Proof/Machine/SoftwareInterrupt.lean ====
section
/-! DEFINITION. SWI, BKPT and the unallocated words (46_swi_coprocessor.md R400, R401; 30_encoding.md R170). -/

namespace Sys2Proof.Machine

/-- A word without a meaning (30_encoding.md R170; 46_swi_coprocessor.md R414): the exception (60_exceptions.md R503), or
the host status unknown-opcode and nothing else (log entry 20). -/
def takeUndefined (o : UndefOutcome) (s : State) : State :=
  match o with
  | .exception => raiseHere .undefinedInstruction s
  | .unknownOpcode => { s with status := .unknownOpcode }

/-- SWI (46_swi_coprocessor.md R400); the core does not interpret the immediate. -/
def execSwi (c : Cond) (_imm24 : BitVec 24) (s : State) : Host.Outcome State Fault Refusal :=
  whenPasses c s (.next (raiseHere .softwareInterrupt s))

/-- BKPT (46_swi_coprocessor.md R401; 60_exceptions.md R542). -/
def execBkpt (c : Cond) (_imm24 : BitVec 24) (s : State) : Host.Outcome State Fault Refusal :=
  whenPasses c s (.next (raiseBreakpoint s))

/-- An unallocated word of class 00 (30_encoding.md R170 (a); 60_exceptions.md R503). -/
def execUndefDp (c : Cond) (_bits : BitVec 28) (s : State) : Host.Outcome State Fault Refusal :=
  whenPasses c s (.next (takeUndefined s.cfg.undefOutcome s))

/-- An unallocated word of class 01 (30_encoding.md R170 (b); 60_exceptions.md R503). -/
def execUndefSdt (c : Cond) (_bits : BitVec 28) (s : State) : Host.Outcome State Fault Refusal :=
  whenPasses c s (.next (takeUndefined s.cfg.undefOutcome s))

end Sys2Proof.Machine
end

