-- ==== Sys2Proof/Machine/Coprocessor.lean ====
section
/-! DEFINITION. The coprocessor instructions and the hardware manager's operations (46_swi_coprocessor.md R410 to R430). -/

namespace Sys2Proof.Machine

/-! The hardware manager's operations, on its own registers `CR`. -/

/-- `CR[n]` of the hardware manager. -/
def hwCr (s : State) (n : CrNum) : Word := s.cr .hwmgr n

/-- `CR[n] <- v` of the hardware manager. -/
def setHwCr (s : State) (n : CrNum) (v : Word) : State := s.setCr .hwmgr n v

/-- Device count (46_swi_coprocessor.md R421). -/
def hwNumDevices (crd : CrNum) (s : State) : State :=
  setHwCr s crd (BitVec.ofNat 32 s.devices.length)

/-- Memory-mapping request (46_swi_coprocessor.md R422). -/
def hwMapMemory (crn crd crm : CrNum) (s : State) : State :=
  let r := mapMemory (hwCr s crn).toNat (hwCr s crm).toNat (hwCr s crd).toNat s
  setHwCr r.2 crd (statusValue s.cfg r.1)

/-- Device id (46_swi_coprocessor.md R423). -/
def hwDeviceId (crn crd : CrNum) (s : State) : State :=
  match s.devices[(hwCr s crn).toNat]? with
  | some d => setHwCr s crd d.id
  | none => setHwCr s crd 0xFFFFFFFF#32

/-- Last interrupt (46_swi_coprocessor.md R424): the id, then the code. -/
def hwLastInterrupt (crn crd : CrNum) (s : State) : State :=
  setHwCr (setHwCr s crd s.lastInterrupt.deviceId) crn s.lastInterrupt.code

/-- Wait for interrupt (46_swi_coprocessor.md R425). -/
def hwWait (s : State) : State :=
  if !s.flagI && !s.flagF then { s with waiting := true } else s

/-- Pseudo-clock (46_swi_coprocessor.md R426). -/
def hwClock (crd : CrNum) (s : State) : State :=
  setHwCr s crd s.cfg.clockValue

/-- Device operation (46_swi_coprocessor.md R427). A callback that re-enters the core is refused (70_reset_and_hazards.md
R613); an operation has no failure of its own, so a reply's `fails` has no effect (log entry 9). -/
def hwDeviceOp (crn crd crm : CrNum) (s : State) : Host.Outcome State Fault Refusal :=
  match s.devices[(hwCr s crd).toNat]? with
  | none => .next (setHwCr s crd 0xFFFFFFFF#32)
  | some d =>
    if !d.operation then .next (setHwCr s crd 0xFFFFFFFF#32)
    else
      let r := (nextReply s).1
      match callDevice (.operation (hwCr s crd).toNat (hwCr s crn) (hwCr s crm)) s with
      | .done v t => .next (setHwCr t crd v)
      | .abort t => .next (setHwCr t crd r.value)
      | .refused r => .refused r

/-- The operation op1 selects; another op1 has no effect (46_swi_coprocessor.md R420). -/
def hwmgrOperation (op1 : BitVec 4) (crn crd crm : CrNum) (s : State) : Host.Outcome State Fault Refusal :=
  if op1 = s.cfg.opNumDevices then .next (hwNumDevices crd s)
  else if op1 = s.cfg.opMapMemory then .next (hwMapMemory crn crd crm s)
  else if op1 = s.cfg.opDeviceId then .next (hwDeviceId crn crd s)
  else if op1 = s.cfg.opLastInterrupt then .next (hwLastInterrupt crn crd s)
  else if op1 = s.cfg.opWait then .next (hwWait s)
  else if op1 = s.cfg.opClock then .next (hwClock crd s)
  else if op1 = s.cfg.opDeviceOp then hwDeviceOp crn crd crm s
  else .next s

/-! The instructions. An unrecognised coprocessor number has no effect (46_swi_coprocessor.md R410). -/

/-- CDP (46_swi_coprocessor.md R413, R430); op2 selects nothing. -/
def execCdp (c : Cond) (op1 : BitVec 4) (crn crd : CrNum) (cp : BitVec 4) (_op2 : BitVec 3) (crm : CrNum) (s : State) :
    Host.Outcome State Fault Refusal :=
  whenPasses c s
    (match coprocOf s.cfg cp with
    | none => .next s
    | some .hwmgr => hwmgrOperation op1 crn crd crm s
    | some .mmu => .refused .cdpMmu
    | some .intctl => .refused .cdpIntctl)

/-- MCR (46_swi_coprocessor.md R411); op1, op2 and CRm are ignored. -/
def execMcr (c : Cond) (_op1 : BitVec 3) (crn : CrNum) (rd : RegNum) (cp : BitVec 4) (_op2 : BitVec 3) (_crm : CrNum)
    (s : State) : Host.Outcome State Fault Refusal :=
  whenPasses c s
    (match coprocOf s.cfg cp with
    | none => .next s
    | some k => .next (s.setCr k crn (s.readFull rd)))

/-- MRC (46_swi_coprocessor.md R412); op1, op2 and CRm are ignored. -/
def execMrc (c : Cond) (_op1 : BitVec 3) (crn : CrNum) (rd : RegNum) (cp : BitVec 4) (_op2 : BitVec 3) (_crm : CrNum)
    (s : State) : Host.Outcome State Fault Refusal :=
  whenPasses c s
    (match coprocOf s.cfg cp with
    | none => .next s
    | some k => if rd = 15#4 then .refused .mrcR15 else .next (s.setReg rd (s.cr k crn)))

/-- STC (46_swi_coprocessor.md R414): `CDT_OUTCOME`, no memory access. -/
def execStc (c : Cond) (_pf _uf _nf _wf : Bool) (_rn : RegNum) (_crd : CrNum) (_cp : BitVec 4) (_offset8 : BitVec 8)
    (s : State) : Host.Outcome State Fault Refusal :=
  whenPasses c s (.next (takeUndefined s.cfg.cdtOutcome s))

/-- LDC (46_swi_coprocessor.md R414): `CDT_OUTCOME`, no memory access. -/
def execLdc (c : Cond) (_pf _uf _nf _wf : Bool) (_rn : RegNum) (_crd : CrNum) (_cp : BitVec 4) (_offset8 : BitVec 8)
    (s : State) : Host.Outcome State Fault Refusal :=
  whenPasses c s (.next (takeUndefined s.cfg.cdtOutcome s))

end Sys2Proof.Machine
end

