-- ==== Sys2Proof/Machine/DataProcessing.lean ====
section
/-! DEFINITION. The data-processing instructions (40_data_processing.md R210 to R231). -/

namespace Sys2Proof.Machine

/-- `DPExec` (40_data_processing.md R210 to R215) for a second operand and its shifter carry. It raises nothing and makes
no memory access (R211). -/
def dpExec (op : DpOp) (sf : Bool) (rn rd : RegNum) (op2 : Word × Bool) (s : State) : State :=
  let r := dpCompute op (s.readBase rn) op2.1 op2.2 s.flagC s.flagV
  if DpOp.isTest op then
    if !sf then s
    else if rd = 15#4 then s.psrWrite r.res
    else s.setAluFlags r
  else if rd = 15#4 then
    if sf then s.writeR15S r.res else s.writePc r.res
  else if sf then (s.setReg rd r.res).setAluFlags r
  else s.setReg rd r.res

/-- A data-processing instruction; a test operation with S = 0 has no meaning under `TEST_NOS` = refuse
(40_data_processing.md R215). -/
def dpOutcome (op : DpOp) (sf : Bool) (rn rd : RegNum) (op2 : Word × Bool) (s : State) :
    Host.Outcome State Fault Refusal :=
  if DpOp.isTest op && !sf && decide (s.cfg.testNoS = .refuse) then .refused .testWithoutS
  else .next (dpExec op sf rn rd op2 s)

/-- AND with an immediate operand (40_data_processing.md R216). -/
def execAndImm (c : Cond) (sf : Bool) (rn rd : RegNum) (rot : BitVec 4) (imm8 : BitVec 8) (s : State) :
    Host.Outcome State Fault Refusal :=
  whenPasses c s (dpOutcome .and sf rn rd (op2Imm rot imm8 s) s)

/-- AND with an immediate-shifted register (40_data_processing.md R216). -/
def execAndRsi (c : Cond) (sf : Bool) (rn rd : RegNum) (shamt : BitVec 5) (sh : ShiftType) (rm : RegNum) (s : State) :
    Host.Outcome State Fault Refusal :=
  whenPasses c s (dpOutcome .and sf rn rd (op2Rsi shamt sh rm s) s)

/-- AND with a register-shifted register (40_data_processing.md R216). -/
def execAndRsr (c : Cond) (sf : Bool) (rn rd rs : RegNum) (sh : ShiftType) (rm : RegNum) (s : State) :
    Host.Outcome State Fault Refusal :=
  whenPasses c s (dpOutcome .and sf rn rd (op2Rsr rs sh rm s) s)

/-- EOR with an immediate operand (40_data_processing.md R217). -/
def execEorImm (c : Cond) (sf : Bool) (rn rd : RegNum) (rot : BitVec 4) (imm8 : BitVec 8) (s : State) :
    Host.Outcome State Fault Refusal :=
  whenPasses c s (dpOutcome .eor sf rn rd (op2Imm rot imm8 s) s)

/-- EOR with an immediate-shifted register (40_data_processing.md R217). -/
def execEorRsi (c : Cond) (sf : Bool) (rn rd : RegNum) (shamt : BitVec 5) (sh : ShiftType) (rm : RegNum) (s : State) :
    Host.Outcome State Fault Refusal :=
  whenPasses c s (dpOutcome .eor sf rn rd (op2Rsi shamt sh rm s) s)

/-- EOR with a register-shifted register (40_data_processing.md R217). -/
def execEorRsr (c : Cond) (sf : Bool) (rn rd rs : RegNum) (sh : ShiftType) (rm : RegNum) (s : State) :
    Host.Outcome State Fault Refusal :=
  whenPasses c s (dpOutcome .eor sf rn rd (op2Rsr rs sh rm s) s)

/-- SUB with an immediate operand (40_data_processing.md R218). -/
def execSubImm (c : Cond) (sf : Bool) (rn rd : RegNum) (rot : BitVec 4) (imm8 : BitVec 8) (s : State) :
    Host.Outcome State Fault Refusal :=
  whenPasses c s (dpOutcome .sub sf rn rd (op2Imm rot imm8 s) s)

/-- SUB with an immediate-shifted register (40_data_processing.md R218). -/
def execSubRsi (c : Cond) (sf : Bool) (rn rd : RegNum) (shamt : BitVec 5) (sh : ShiftType) (rm : RegNum) (s : State) :
    Host.Outcome State Fault Refusal :=
  whenPasses c s (dpOutcome .sub sf rn rd (op2Rsi shamt sh rm s) s)

/-- SUB with a register-shifted register (40_data_processing.md R218). -/
def execSubRsr (c : Cond) (sf : Bool) (rn rd rs : RegNum) (sh : ShiftType) (rm : RegNum) (s : State) :
    Host.Outcome State Fault Refusal :=
  whenPasses c s (dpOutcome .sub sf rn rd (op2Rsr rs sh rm s) s)

/-- RSB with an immediate operand (40_data_processing.md R219). -/
def execRsbImm (c : Cond) (sf : Bool) (rn rd : RegNum) (rot : BitVec 4) (imm8 : BitVec 8) (s : State) :
    Host.Outcome State Fault Refusal :=
  whenPasses c s (dpOutcome .rsb sf rn rd (op2Imm rot imm8 s) s)

/-- RSB with an immediate-shifted register (40_data_processing.md R219). -/
def execRsbRsi (c : Cond) (sf : Bool) (rn rd : RegNum) (shamt : BitVec 5) (sh : ShiftType) (rm : RegNum) (s : State) :
    Host.Outcome State Fault Refusal :=
  whenPasses c s (dpOutcome .rsb sf rn rd (op2Rsi shamt sh rm s) s)

/-- RSB with a register-shifted register (40_data_processing.md R219). -/
def execRsbRsr (c : Cond) (sf : Bool) (rn rd rs : RegNum) (sh : ShiftType) (rm : RegNum) (s : State) :
    Host.Outcome State Fault Refusal :=
  whenPasses c s (dpOutcome .rsb sf rn rd (op2Rsr rs sh rm s) s)

/-- ADD with an immediate operand (40_data_processing.md R220). -/
def execAddImm (c : Cond) (sf : Bool) (rn rd : RegNum) (rot : BitVec 4) (imm8 : BitVec 8) (s : State) :
    Host.Outcome State Fault Refusal :=
  whenPasses c s (dpOutcome .add sf rn rd (op2Imm rot imm8 s) s)

/-- ADD with an immediate-shifted register (40_data_processing.md R220). -/
def execAddRsi (c : Cond) (sf : Bool) (rn rd : RegNum) (shamt : BitVec 5) (sh : ShiftType) (rm : RegNum) (s : State) :
    Host.Outcome State Fault Refusal :=
  whenPasses c s (dpOutcome .add sf rn rd (op2Rsi shamt sh rm s) s)

/-- ADD with a register-shifted register (40_data_processing.md R220). -/
def execAddRsr (c : Cond) (sf : Bool) (rn rd rs : RegNum) (sh : ShiftType) (rm : RegNum) (s : State) :
    Host.Outcome State Fault Refusal :=
  whenPasses c s (dpOutcome .add sf rn rd (op2Rsr rs sh rm s) s)

/-- ADC with an immediate operand (40_data_processing.md R221). -/
def execAdcImm (c : Cond) (sf : Bool) (rn rd : RegNum) (rot : BitVec 4) (imm8 : BitVec 8) (s : State) :
    Host.Outcome State Fault Refusal :=
  whenPasses c s (dpOutcome .adc sf rn rd (op2Imm rot imm8 s) s)

/-- ADC with an immediate-shifted register (40_data_processing.md R221). -/
def execAdcRsi (c : Cond) (sf : Bool) (rn rd : RegNum) (shamt : BitVec 5) (sh : ShiftType) (rm : RegNum) (s : State) :
    Host.Outcome State Fault Refusal :=
  whenPasses c s (dpOutcome .adc sf rn rd (op2Rsi shamt sh rm s) s)

/-- ADC with a register-shifted register (40_data_processing.md R221). -/
def execAdcRsr (c : Cond) (sf : Bool) (rn rd rs : RegNum) (sh : ShiftType) (rm : RegNum) (s : State) :
    Host.Outcome State Fault Refusal :=
  whenPasses c s (dpOutcome .adc sf rn rd (op2Rsr rs sh rm s) s)

/-- SBC with an immediate operand (40_data_processing.md R222). -/
def execSbcImm (c : Cond) (sf : Bool) (rn rd : RegNum) (rot : BitVec 4) (imm8 : BitVec 8) (s : State) :
    Host.Outcome State Fault Refusal :=
  whenPasses c s (dpOutcome .sbc sf rn rd (op2Imm rot imm8 s) s)

/-- SBC with an immediate-shifted register (40_data_processing.md R222). -/
def execSbcRsi (c : Cond) (sf : Bool) (rn rd : RegNum) (shamt : BitVec 5) (sh : ShiftType) (rm : RegNum) (s : State) :
    Host.Outcome State Fault Refusal :=
  whenPasses c s (dpOutcome .sbc sf rn rd (op2Rsi shamt sh rm s) s)

/-- SBC with a register-shifted register (40_data_processing.md R222). -/
def execSbcRsr (c : Cond) (sf : Bool) (rn rd rs : RegNum) (sh : ShiftType) (rm : RegNum) (s : State) :
    Host.Outcome State Fault Refusal :=
  whenPasses c s (dpOutcome .sbc sf rn rd (op2Rsr rs sh rm s) s)

/-- RSC with an immediate operand (40_data_processing.md R223). -/
def execRscImm (c : Cond) (sf : Bool) (rn rd : RegNum) (rot : BitVec 4) (imm8 : BitVec 8) (s : State) :
    Host.Outcome State Fault Refusal :=
  whenPasses c s (dpOutcome .rsc sf rn rd (op2Imm rot imm8 s) s)

/-- RSC with an immediate-shifted register (40_data_processing.md R223). -/
def execRscRsi (c : Cond) (sf : Bool) (rn rd : RegNum) (shamt : BitVec 5) (sh : ShiftType) (rm : RegNum) (s : State) :
    Host.Outcome State Fault Refusal :=
  whenPasses c s (dpOutcome .rsc sf rn rd (op2Rsi shamt sh rm s) s)

/-- RSC with a register-shifted register (40_data_processing.md R223). -/
def execRscRsr (c : Cond) (sf : Bool) (rn rd rs : RegNum) (sh : ShiftType) (rm : RegNum) (s : State) :
    Host.Outcome State Fault Refusal :=
  whenPasses c s (dpOutcome .rsc sf rn rd (op2Rsr rs sh rm s) s)

/-- TST with an immediate operand (40_data_processing.md R224). -/
def execTstImm (c : Cond) (sf : Bool) (rn rd : RegNum) (rot : BitVec 4) (imm8 : BitVec 8) (s : State) :
    Host.Outcome State Fault Refusal :=
  whenPasses c s (dpOutcome .tst sf rn rd (op2Imm rot imm8 s) s)

/-- TST with an immediate-shifted register (40_data_processing.md R224). -/
def execTstRsi (c : Cond) (sf : Bool) (rn rd : RegNum) (shamt : BitVec 5) (sh : ShiftType) (rm : RegNum) (s : State) :
    Host.Outcome State Fault Refusal :=
  whenPasses c s (dpOutcome .tst sf rn rd (op2Rsi shamt sh rm s) s)

/-- TST with a register-shifted register (40_data_processing.md R224). -/
def execTstRsr (c : Cond) (sf : Bool) (rn rd rs : RegNum) (sh : ShiftType) (rm : RegNum) (s : State) :
    Host.Outcome State Fault Refusal :=
  whenPasses c s (dpOutcome .tst sf rn rd (op2Rsr rs sh rm s) s)

/-- TEQ with an immediate operand (40_data_processing.md R225). -/
def execTeqImm (c : Cond) (sf : Bool) (rn rd : RegNum) (rot : BitVec 4) (imm8 : BitVec 8) (s : State) :
    Host.Outcome State Fault Refusal :=
  whenPasses c s (dpOutcome .teq sf rn rd (op2Imm rot imm8 s) s)

/-- TEQ with an immediate-shifted register (40_data_processing.md R225). -/
def execTeqRsi (c : Cond) (sf : Bool) (rn rd : RegNum) (shamt : BitVec 5) (sh : ShiftType) (rm : RegNum) (s : State) :
    Host.Outcome State Fault Refusal :=
  whenPasses c s (dpOutcome .teq sf rn rd (op2Rsi shamt sh rm s) s)

/-- TEQ with a register-shifted register (40_data_processing.md R225). -/
def execTeqRsr (c : Cond) (sf : Bool) (rn rd rs : RegNum) (sh : ShiftType) (rm : RegNum) (s : State) :
    Host.Outcome State Fault Refusal :=
  whenPasses c s (dpOutcome .teq sf rn rd (op2Rsr rs sh rm s) s)

/-- CMP with an immediate operand (40_data_processing.md R226). -/
def execCmpImm (c : Cond) (sf : Bool) (rn rd : RegNum) (rot : BitVec 4) (imm8 : BitVec 8) (s : State) :
    Host.Outcome State Fault Refusal :=
  whenPasses c s (dpOutcome .cmp sf rn rd (op2Imm rot imm8 s) s)

/-- CMP with an immediate-shifted register (40_data_processing.md R226). -/
def execCmpRsi (c : Cond) (sf : Bool) (rn rd : RegNum) (shamt : BitVec 5) (sh : ShiftType) (rm : RegNum) (s : State) :
    Host.Outcome State Fault Refusal :=
  whenPasses c s (dpOutcome .cmp sf rn rd (op2Rsi shamt sh rm s) s)

/-- CMP with a register-shifted register (40_data_processing.md R226). -/
def execCmpRsr (c : Cond) (sf : Bool) (rn rd rs : RegNum) (sh : ShiftType) (rm : RegNum) (s : State) :
    Host.Outcome State Fault Refusal :=
  whenPasses c s (dpOutcome .cmp sf rn rd (op2Rsr rs sh rm s) s)

/-- CMN with an immediate operand (40_data_processing.md R227). -/
def execCmnImm (c : Cond) (sf : Bool) (rn rd : RegNum) (rot : BitVec 4) (imm8 : BitVec 8) (s : State) :
    Host.Outcome State Fault Refusal :=
  whenPasses c s (dpOutcome .cmn sf rn rd (op2Imm rot imm8 s) s)

/-- CMN with an immediate-shifted register (40_data_processing.md R227). -/
def execCmnRsi (c : Cond) (sf : Bool) (rn rd : RegNum) (shamt : BitVec 5) (sh : ShiftType) (rm : RegNum) (s : State) :
    Host.Outcome State Fault Refusal :=
  whenPasses c s (dpOutcome .cmn sf rn rd (op2Rsi shamt sh rm s) s)

/-- CMN with a register-shifted register (40_data_processing.md R227). -/
def execCmnRsr (c : Cond) (sf : Bool) (rn rd rs : RegNum) (sh : ShiftType) (rm : RegNum) (s : State) :
    Host.Outcome State Fault Refusal :=
  whenPasses c s (dpOutcome .cmn sf rn rd (op2Rsr rs sh rm s) s)

/-- ORR with an immediate operand (40_data_processing.md R228). -/
def execOrrImm (c : Cond) (sf : Bool) (rn rd : RegNum) (rot : BitVec 4) (imm8 : BitVec 8) (s : State) :
    Host.Outcome State Fault Refusal :=
  whenPasses c s (dpOutcome .orr sf rn rd (op2Imm rot imm8 s) s)

/-- ORR with an immediate-shifted register (40_data_processing.md R228). -/
def execOrrRsi (c : Cond) (sf : Bool) (rn rd : RegNum) (shamt : BitVec 5) (sh : ShiftType) (rm : RegNum) (s : State) :
    Host.Outcome State Fault Refusal :=
  whenPasses c s (dpOutcome .orr sf rn rd (op2Rsi shamt sh rm s) s)

/-- ORR with a register-shifted register (40_data_processing.md R228). -/
def execOrrRsr (c : Cond) (sf : Bool) (rn rd rs : RegNum) (sh : ShiftType) (rm : RegNum) (s : State) :
    Host.Outcome State Fault Refusal :=
  whenPasses c s (dpOutcome .orr sf rn rd (op2Rsr rs sh rm s) s)

/-- MOV with an immediate operand (40_data_processing.md R229). -/
def execMovImm (c : Cond) (sf : Bool) (rn rd : RegNum) (rot : BitVec 4) (imm8 : BitVec 8) (s : State) :
    Host.Outcome State Fault Refusal :=
  whenPasses c s (dpOutcome .mov sf rn rd (op2Imm rot imm8 s) s)

/-- MOV with an immediate-shifted register (40_data_processing.md R229). -/
def execMovRsi (c : Cond) (sf : Bool) (rn rd : RegNum) (shamt : BitVec 5) (sh : ShiftType) (rm : RegNum) (s : State) :
    Host.Outcome State Fault Refusal :=
  whenPasses c s (dpOutcome .mov sf rn rd (op2Rsi shamt sh rm s) s)

/-- MOV with a register-shifted register (40_data_processing.md R229). -/
def execMovRsr (c : Cond) (sf : Bool) (rn rd rs : RegNum) (sh : ShiftType) (rm : RegNum) (s : State) :
    Host.Outcome State Fault Refusal :=
  whenPasses c s (dpOutcome .mov sf rn rd (op2Rsr rs sh rm s) s)

/-- BIC with an immediate operand (40_data_processing.md R230). -/
def execBicImm (c : Cond) (sf : Bool) (rn rd : RegNum) (rot : BitVec 4) (imm8 : BitVec 8) (s : State) :
    Host.Outcome State Fault Refusal :=
  whenPasses c s (dpOutcome .bic sf rn rd (op2Imm rot imm8 s) s)

/-- BIC with an immediate-shifted register (40_data_processing.md R230). -/
def execBicRsi (c : Cond) (sf : Bool) (rn rd : RegNum) (shamt : BitVec 5) (sh : ShiftType) (rm : RegNum) (s : State) :
    Host.Outcome State Fault Refusal :=
  whenPasses c s (dpOutcome .bic sf rn rd (op2Rsi shamt sh rm s) s)

/-- BIC with a register-shifted register (40_data_processing.md R230). -/
def execBicRsr (c : Cond) (sf : Bool) (rn rd rs : RegNum) (sh : ShiftType) (rm : RegNum) (s : State) :
    Host.Outcome State Fault Refusal :=
  whenPasses c s (dpOutcome .bic sf rn rd (op2Rsr rs sh rm s) s)

/-- MVN with an immediate operand (40_data_processing.md R231). -/
def execMvnImm (c : Cond) (sf : Bool) (rn rd : RegNum) (rot : BitVec 4) (imm8 : BitVec 8) (s : State) :
    Host.Outcome State Fault Refusal :=
  whenPasses c s (dpOutcome .mvn sf rn rd (op2Imm rot imm8 s) s)

/-- MVN with an immediate-shifted register (40_data_processing.md R231). -/
def execMvnRsi (c : Cond) (sf : Bool) (rn rd : RegNum) (shamt : BitVec 5) (sh : ShiftType) (rm : RegNum) (s : State) :
    Host.Outcome State Fault Refusal :=
  whenPasses c s (dpOutcome .mvn sf rn rd (op2Rsi shamt sh rm s) s)

/-- MVN with a register-shifted register (40_data_processing.md R231). -/
def execMvnRsr (c : Cond) (sf : Bool) (rn rd rs : RegNum) (sh : ShiftType) (rm : RegNum) (s : State) :
    Host.Outcome State Fault Refusal :=
  whenPasses c s (dpOutcome .mvn sf rn rd (op2Rsr rs sh rm s) s)

end Sys2Proof.Machine
end

