-- ==== Sys2Proof/Machine/Multiply.lean ====
section
/-! DEFINITION. The multiply instructions (41_multiply.md R260 to R264). -/

namespace Sys2Proof.Machine

/-- A multiply's result written, and its flags when S = 1 (41_multiply.md R261 to R263). -/
def mulWrite (sf : Bool) (rd : RegNum) (res : Word) (s : State) : State :=
  if sf then (s.setReg rd res).setMulFlags res else s.setReg rd res

/-- The refusals of a multiply (41_multiply.md R264), and otherwise nothing; `ops` are its register operands. -/
def mulRefusal (rd rm : RegNum) (ops : List RegNum) : Option Refusal :=
  if ops.contains 15#4 then some .multiplyR15
  else if rd = rm then some .multiplyRdEqRm
  else none

/-- MUL (41_multiply.md R262); the Rn field is ignored. -/
def execMul (c : Cond) (sf : Bool) (rd _rn rs rm : RegNum) (s : State) : Host.Outcome State Fault Refusal :=
  whenPasses c s
    (match mulRefusal rd rm [rd, rs, rm] with
    | some r => .refused r
    | none => .next (mulWrite sf rd (s.reg rm * s.reg rs) s))

/-- MLA (41_multiply.md R263). -/
def execMla (c : Cond) (sf : Bool) (rd rn rs rm : RegNum) (s : State) : Host.Outcome State Fault Refusal :=
  whenPasses c s
    (match mulRefusal rd rm [rd, rn, rs, rm] with
    | some r => .refused r
    | none => .next (mulWrite sf rd (s.reg rm * s.reg rs + s.reg rn) s))

end Sys2Proof.Machine
end

