-- ==== Sys2Proof/Machine/SingleTransfer.lean ====
section
/-! DEFINITION. Single data transfer (43_single_transfer.md R300 to R314). -/

namespace Sys2Proof.Machine

/-- Whether a transfer is a T form: post-indexed with W = 1 (43_single_transfer.md R301). -/
def isTForm (pf wf : Bool) : Bool :=
  !pf && wf

/-- The refusals of a single transfer (43_single_transfer.md R301, R307), and otherwise nothing. -/
def sdtRefusal (forms : TForms) (load pf wf : Bool) (rn rd : RegNum) : Option Refusal :=
  if isTForm pf wf && decide (forms = .refuse) then some .transferTForm
  else if (!pf || wf) && decide (rn = 15#4) then some .transferWritebackR15
  else if load && (!pf || wf) && decide (rn = rd) then some .loadWritebackRnEqRd
  else none

/-- The write-back of a transfer that makes one: every post-indexed one, and a pre-indexed one with W = 1
(43_single_transfer.md R301). -/
def sdtWriteback (pf wf : Bool) (rn : RegNum) (moved : Word) (s : State) : State :=
  if !pf || wf then s.setReg rn moved else s

/-- A DataAbort of a single transfer: no register written, and no write-back unless `SDT_ABORT_WRITEBACK` says so
(43_single_transfer.md R303). -/
def sdtAbort (pf wf : Bool) (rn : RegNum) (moved : Word) (s : State) : State :=
  raise .dataAbort (s.instrAddr + linkOffset s.cfg .dataAbort)
    (if s.cfg.sdtAbortWriteback then sdtWriteback pf wf rn moved s else s)

/-- A loaded value written: only the PC field of R15, or a register (43_single_transfer.md R305). -/
def sdtLoadInto (rd : RegNum) (v : Word) (s : State) : State :=
  if rd = 15#4 then s.writePc v else s.setReg rd v

/-- The value a store stores (43_single_transfer.md R304, R306). -/
def sdtStoreValue (byte : Bool) (rd : RegNum) (s : State) : Word :=
  if byte then fieldAt ((s.readFull rd).extractLsb' 0 8) 0 else s.readFull rd

/-- The machine as in USR. -/
def inUser (s : State) : State :=
  { s with r15 := fieldAt (s.r15.extractLsb' 2 30) 2 ||| fieldAt (modeBits .usr) 0 }

/-- An access checked as in USR, whatever the mode; R15 is afterwards as it was (92_eei_decisions.md D15). -/
def asUser {α : Type} (access : State → Access α) (s : State) : Access α :=
  match access (inUser s) with
  | .done v t => .done v { t with r15 := s.r15 }
  | .abort t => .abort { t with r15 := s.r15 }
  | .refused r => .refused r

/-- The access of a single transfer: of a T form as in USR, of another in the mode of the machine. -/
def sdtAccess {α : Type} (pf wf : Bool) (access : State → Access α) (s : State) : Access α :=
  if isTForm pf wf then asUser access s else access s

/-- `SDTExec` after its refusals (43_single_transfer.md R304). -/
def sdtTransfer (load byte pf uf wf : Bool) (rn rd : RegNum) (offset : Word) (s : State) :
    Host.Outcome State Fault Refusal :=
  let moved := movedAddr uf (s.readBase rn) offset
  let addr := transferAddr pf uf (s.readBase rn) offset
  if !onBus addr then .next (raiseHere .addressException s)
  else if load then
    match sdtAccess pf wf (memRead (!byte) (busAddr addr)) s with
    | .done v t => .next (sdtLoadInto rd v (sdtWriteback pf wf rn moved t))
    | .abort t => .next (sdtAbort pf wf rn moved t)
    | .refused r => .refused r
  else
    match sdtAccess pf wf (memWrite (!byte) (busAddr addr) (sdtStoreValue byte rd s)) s with
    | .done _ t => .next (sdtWriteback pf wf rn moved t)
    | .abort t => .next (sdtAbort pf wf rn moved t)
    | .refused r => .refused r

/-- A single transfer with an immediate offset (43_single_transfer.md R304). -/
def sdtImm (load byte pf uf wf : Bool) (rn rd : RegNum) (imm12 : BitVec 12) (s : State) :
    Host.Outcome State Fault Refusal :=
  match sdtRefusal s.cfg.tForms load pf wf rn rd with
  | some r => .refused r
  | none => sdtTransfer load byte pf uf wf rn rd (offsetImm imm12) s

/-- A single transfer with a register offset; R15 as the offset register is refused (43_single_transfer.md R304, R307). -/
def sdtReg (load byte pf uf wf : Bool) (rn rd : RegNum) (shamt : BitVec 5) (sh : ShiftType) (rm : RegNum) (s : State) :
    Host.Outcome State Fault Refusal :=
  match sdtRefusal s.cfg.tForms load pf wf rn rd with
  | some r => .refused r
  | none =>
    if rm = 15#4 then .refused .transferOffsetR15
    else sdtTransfer load byte pf uf wf rn rd (offsetReg shamt sh rm s) s

/-- STR with an immediate offset (43_single_transfer.md R311). -/
def execStrImm (c : Cond) (pf uf wf : Bool) (rn rd : RegNum) (imm12 : BitVec 12) (s : State) :
    Host.Outcome State Fault Refusal :=
  whenPasses c s (sdtImm false false pf uf wf rn rd imm12 s)

/-- STR with a register offset (43_single_transfer.md R311). -/
def execStrReg (c : Cond) (pf uf wf : Bool) (rn rd : RegNum) (shamt : BitVec 5) (sh : ShiftType) (rm : RegNum)
    (s : State) : Host.Outcome State Fault Refusal :=
  whenPasses c s (sdtReg false false pf uf wf rn rd shamt sh rm s)

/-- LDR with an immediate offset (43_single_transfer.md R310). -/
def execLdrImm (c : Cond) (pf uf wf : Bool) (rn rd : RegNum) (imm12 : BitVec 12) (s : State) :
    Host.Outcome State Fault Refusal :=
  whenPasses c s (sdtImm true false pf uf wf rn rd imm12 s)

/-- LDR with a register offset (43_single_transfer.md R310). -/
def execLdrReg (c : Cond) (pf uf wf : Bool) (rn rd : RegNum) (shamt : BitVec 5) (sh : ShiftType) (rm : RegNum)
    (s : State) : Host.Outcome State Fault Refusal :=
  whenPasses c s (sdtReg true false pf uf wf rn rd shamt sh rm s)

/-- STRB with an immediate offset (43_single_transfer.md R313). -/
def execStrbImm (c : Cond) (pf uf wf : Bool) (rn rd : RegNum) (imm12 : BitVec 12) (s : State) :
    Host.Outcome State Fault Refusal :=
  whenPasses c s (sdtImm false true pf uf wf rn rd imm12 s)

/-- STRB with a register offset (43_single_transfer.md R313). -/
def execStrbReg (c : Cond) (pf uf wf : Bool) (rn rd : RegNum) (shamt : BitVec 5) (sh : ShiftType) (rm : RegNum)
    (s : State) : Host.Outcome State Fault Refusal :=
  whenPasses c s (sdtReg false true pf uf wf rn rd shamt sh rm s)

/-- LDRB with an immediate offset (43_single_transfer.md R312). -/
def execLdrbImm (c : Cond) (pf uf wf : Bool) (rn rd : RegNum) (imm12 : BitVec 12) (s : State) :
    Host.Outcome State Fault Refusal :=
  whenPasses c s (sdtImm true true pf uf wf rn rd imm12 s)

/-- LDRB with a register offset (43_single_transfer.md R312). -/
def execLdrbReg (c : Cond) (pf uf wf : Bool) (rn rd : RegNum) (shamt : BitVec 5) (sh : ShiftType) (rm : RegNum)
    (s : State) : Host.Outcome State Fault Refusal :=
  whenPasses c s (sdtReg true true pf uf wf rn rd shamt sh rm s)

end Sys2Proof.Machine
end

