-- ==== Sys2Proof/Machine/Swap.lean ====
section
/-! DEFINITION. Single data swap (42_swap.md R280 to R285). -/

namespace Sys2Proof.Machine

/-- The value a swap stores (42_swap.md R281). -/
def swapValue (byte : Bool) (rm : RegNum) (s : State) : Word :=
  if byte then fieldAt ((s.reg rm).extractLsb' 0 8) 0 else s.reg rm

/-- `SwapExec` (42_swap.md R281 to R283): the read, then the write, then Rd. -/
def swapExec (byte : Bool) (rn rd rm : RegNum) (s : State) : Host.Outcome State Fault Refusal :=
  if rn = 15#4 ∨ rd = 15#4 ∨ rm = 15#4 then .refused .swapR15
  else if !onBus (s.reg rn) then .next (raiseHere .addressException s)
  else
    match memRead (!byte) (busAddr (s.reg rn)) s with
    | .refused r => .refused r
    | .abort t => .next (raiseHere .dataAbort t)
    | .done old t =>
      match memWrite (!byte) (busAddr (s.reg rn)) (swapValue byte rm s) t with
      | .refused r => .refused r
      | .abort u => .next (raiseHere .dataAbort u)
      | .done _ u => .next (u.setReg rd old)

/-- SWP (42_swap.md R284). -/
def execSwp (c : Cond) (rn rd rm : RegNum) (s : State) : Host.Outcome State Fault Refusal :=
  whenPasses c s (swapExec false rn rd rm s)

/-- SWPB (42_swap.md R285). -/
def execSwpb (c : Cond) (rn rd rm : RegNum) (s : State) : Host.Outcome State Fault Refusal :=
  whenPasses c s (swapExec true rn rd rm s)

end Sys2Proof.Machine
end

