-- ==== Sys2Proof/Machine/Dispatch.lean ====
section
/-! DEFINITION. The meaning of each instruction: one call for each constructor of `Instr`. `exec` runs with the PC field
already advanced past the instruction (10_state.md R43). -/

namespace Sys2Proof.Machine

def exec (i : Instr) (s : State) : Host.Outcome State Fault Refusal :=
  match i with
  | .andImm c sf rn rd rot imm8 => Sys2Proof.Machine.execAndImm c sf rn rd rot imm8 s
  | .andRsi c sf rn rd shamt sh rm => Sys2Proof.Machine.execAndRsi c sf rn rd shamt sh rm s
  | .andRsr c sf rn rd rs sh rm => Sys2Proof.Machine.execAndRsr c sf rn rd rs sh rm s
  | .eorImm c sf rn rd rot imm8 => Sys2Proof.Machine.execEorImm c sf rn rd rot imm8 s
  | .eorRsi c sf rn rd shamt sh rm => Sys2Proof.Machine.execEorRsi c sf rn rd shamt sh rm s
  | .eorRsr c sf rn rd rs sh rm => Sys2Proof.Machine.execEorRsr c sf rn rd rs sh rm s
  | .subImm c sf rn rd rot imm8 => Sys2Proof.Machine.execSubImm c sf rn rd rot imm8 s
  | .subRsi c sf rn rd shamt sh rm => Sys2Proof.Machine.execSubRsi c sf rn rd shamt sh rm s
  | .subRsr c sf rn rd rs sh rm => Sys2Proof.Machine.execSubRsr c sf rn rd rs sh rm s
  | .rsbImm c sf rn rd rot imm8 => Sys2Proof.Machine.execRsbImm c sf rn rd rot imm8 s
  | .rsbRsi c sf rn rd shamt sh rm => Sys2Proof.Machine.execRsbRsi c sf rn rd shamt sh rm s
  | .rsbRsr c sf rn rd rs sh rm => Sys2Proof.Machine.execRsbRsr c sf rn rd rs sh rm s
  | .addImm c sf rn rd rot imm8 => Sys2Proof.Machine.execAddImm c sf rn rd rot imm8 s
  | .addRsi c sf rn rd shamt sh rm => Sys2Proof.Machine.execAddRsi c sf rn rd shamt sh rm s
  | .addRsr c sf rn rd rs sh rm => Sys2Proof.Machine.execAddRsr c sf rn rd rs sh rm s
  | .adcImm c sf rn rd rot imm8 => Sys2Proof.Machine.execAdcImm c sf rn rd rot imm8 s
  | .adcRsi c sf rn rd shamt sh rm => Sys2Proof.Machine.execAdcRsi c sf rn rd shamt sh rm s
  | .adcRsr c sf rn rd rs sh rm => Sys2Proof.Machine.execAdcRsr c sf rn rd rs sh rm s
  | .sbcImm c sf rn rd rot imm8 => Sys2Proof.Machine.execSbcImm c sf rn rd rot imm8 s
  | .sbcRsi c sf rn rd shamt sh rm => Sys2Proof.Machine.execSbcRsi c sf rn rd shamt sh rm s
  | .sbcRsr c sf rn rd rs sh rm => Sys2Proof.Machine.execSbcRsr c sf rn rd rs sh rm s
  | .rscImm c sf rn rd rot imm8 => Sys2Proof.Machine.execRscImm c sf rn rd rot imm8 s
  | .rscRsi c sf rn rd shamt sh rm => Sys2Proof.Machine.execRscRsi c sf rn rd shamt sh rm s
  | .rscRsr c sf rn rd rs sh rm => Sys2Proof.Machine.execRscRsr c sf rn rd rs sh rm s
  | .tstImm c sf rn rd rot imm8 => Sys2Proof.Machine.execTstImm c sf rn rd rot imm8 s
  | .tstRsi c sf rn rd shamt sh rm => Sys2Proof.Machine.execTstRsi c sf rn rd shamt sh rm s
  | .tstRsr c sf rn rd rs sh rm => Sys2Proof.Machine.execTstRsr c sf rn rd rs sh rm s
  | .teqImm c sf rn rd rot imm8 => Sys2Proof.Machine.execTeqImm c sf rn rd rot imm8 s
  | .teqRsi c sf rn rd shamt sh rm => Sys2Proof.Machine.execTeqRsi c sf rn rd shamt sh rm s
  | .teqRsr c sf rn rd rs sh rm => Sys2Proof.Machine.execTeqRsr c sf rn rd rs sh rm s
  | .cmpImm c sf rn rd rot imm8 => Sys2Proof.Machine.execCmpImm c sf rn rd rot imm8 s
  | .cmpRsi c sf rn rd shamt sh rm => Sys2Proof.Machine.execCmpRsi c sf rn rd shamt sh rm s
  | .cmpRsr c sf rn rd rs sh rm => Sys2Proof.Machine.execCmpRsr c sf rn rd rs sh rm s
  | .cmnImm c sf rn rd rot imm8 => Sys2Proof.Machine.execCmnImm c sf rn rd rot imm8 s
  | .cmnRsi c sf rn rd shamt sh rm => Sys2Proof.Machine.execCmnRsi c sf rn rd shamt sh rm s
  | .cmnRsr c sf rn rd rs sh rm => Sys2Proof.Machine.execCmnRsr c sf rn rd rs sh rm s
  | .orrImm c sf rn rd rot imm8 => Sys2Proof.Machine.execOrrImm c sf rn rd rot imm8 s
  | .orrRsi c sf rn rd shamt sh rm => Sys2Proof.Machine.execOrrRsi c sf rn rd shamt sh rm s
  | .orrRsr c sf rn rd rs sh rm => Sys2Proof.Machine.execOrrRsr c sf rn rd rs sh rm s
  | .movImm c sf rn rd rot imm8 => Sys2Proof.Machine.execMovImm c sf rn rd rot imm8 s
  | .movRsi c sf rn rd shamt sh rm => Sys2Proof.Machine.execMovRsi c sf rn rd shamt sh rm s
  | .movRsr c sf rn rd rs sh rm => Sys2Proof.Machine.execMovRsr c sf rn rd rs sh rm s
  | .bicImm c sf rn rd rot imm8 => Sys2Proof.Machine.execBicImm c sf rn rd rot imm8 s
  | .bicRsi c sf rn rd shamt sh rm => Sys2Proof.Machine.execBicRsi c sf rn rd shamt sh rm s
  | .bicRsr c sf rn rd rs sh rm => Sys2Proof.Machine.execBicRsr c sf rn rd rs sh rm s
  | .mvnImm c sf rn rd rot imm8 => Sys2Proof.Machine.execMvnImm c sf rn rd rot imm8 s
  | .mvnRsi c sf rn rd shamt sh rm => Sys2Proof.Machine.execMvnRsi c sf rn rd shamt sh rm s
  | .mvnRsr c sf rn rd rs sh rm => Sys2Proof.Machine.execMvnRsr c sf rn rd rs sh rm s
  | .mul c sf rd rn rs rm => Sys2Proof.Machine.execMul c sf rd rn rs rm s
  | .mla c sf rd rn rs rm => Sys2Proof.Machine.execMla c sf rd rn rs rm s
  | .swp c rn rd rm => Sys2Proof.Machine.execSwp c rn rd rm s
  | .swpb c rn rd rm => Sys2Proof.Machine.execSwpb c rn rd rm s
  | .undefDp c bits => Sys2Proof.Machine.execUndefDp c bits s
  | .strImm c pf uf wf rn rd imm12 => Sys2Proof.Machine.execStrImm c pf uf wf rn rd imm12 s
  | .strReg c pf uf wf rn rd shamt sh rm => Sys2Proof.Machine.execStrReg c pf uf wf rn rd shamt sh rm s
  | .ldrImm c pf uf wf rn rd imm12 => Sys2Proof.Machine.execLdrImm c pf uf wf rn rd imm12 s
  | .ldrReg c pf uf wf rn rd shamt sh rm => Sys2Proof.Machine.execLdrReg c pf uf wf rn rd shamt sh rm s
  | .strbImm c pf uf wf rn rd imm12 => Sys2Proof.Machine.execStrbImm c pf uf wf rn rd imm12 s
  | .strbReg c pf uf wf rn rd shamt sh rm => Sys2Proof.Machine.execStrbReg c pf uf wf rn rd shamt sh rm s
  | .ldrbImm c pf uf wf rn rd imm12 => Sys2Proof.Machine.execLdrbImm c pf uf wf rn rd imm12 s
  | .ldrbReg c pf uf wf rn rd shamt sh rm => Sys2Proof.Machine.execLdrbReg c pf uf wf rn rd shamt sh rm s
  | .undefSdt c bits => Sys2Proof.Machine.execUndefSdt c bits s
  | .stm c pf uf sf wf rn reglist => Sys2Proof.Machine.execStm c pf uf sf wf rn reglist s
  | .ldm c pf uf sf wf rn reglist => Sys2Proof.Machine.execLdm c pf uf sf wf rn reglist s
  | .b c offset24 => Sys2Proof.Machine.execB c offset24 s
  | .bl c offset24 => Sys2Proof.Machine.execBl c offset24 s
  | .stc c pf uf nf wf rn crd cp offset8 => Sys2Proof.Machine.execStc c pf uf nf wf rn crd cp offset8 s
  | .ldc c pf uf nf wf rn crd cp offset8 => Sys2Proof.Machine.execLdc c pf uf nf wf rn crd cp offset8 s
  | .cdp c op1 crn crd cp op2 crm => Sys2Proof.Machine.execCdp c op1 crn crd cp op2 crm s
  | .mcr c op1 crn rd cp op2 crm => Sys2Proof.Machine.execMcr c op1 crn rd cp op2 crm s
  | .mrc c op1 crn rd cp op2 crm => Sys2Proof.Machine.execMrc c op1 crn rd cp op2 crm s
  | .swi c imm24 => Sys2Proof.Machine.execSwi c imm24 s
  | .bkpt c imm24 => Sys2Proof.Machine.execBkpt c imm24 s

end Sys2Proof.Machine
end

