-- ==== Sys2Proof/Machine/RunLoop.lean ====
section
/-! DEFINITION. The parts of one iteration of the run loop around the execution of an instruction (60_exceptions.md R550). -/

namespace Sys2Proof.Machine

namespace State

/-- `pin_fiq = 1` and F = 0 (60_exceptions.md R530). -/
def fiqPending (s : State) : Bool := s.pinFiq && !s.flagF

/-- `pin_irq = 1` and I = 0 (60_exceptions.md R530). -/
def irqPending (s : State) : Bool := s.pinIrq && !s.flagI

/-- Whether the core waits with nothing to wake it (60_exceptions.md R533). -/
def stalled (s : State) : Bool := s.waiting && !(s.fiqPending || s.irqPending)

end State

/-- The sampling of the pins at an instruction boundary: FIQ before IRQ (60_exceptions.md R530, R512). -/
def sampleInterrupts (s : State) : State :=
  if s.fiqPending then enter .fiq (s.pc + linkOffset s.cfg .fiq) s
  else if s.irqPending then enter .irq (s.pc + linkOffset s.cfg .irq) s
  else s

/-- The start of an iteration that does not stall: the wait is over, the status is OK so far, and the pins are sampled
(60_exceptions.md R550). -/
def beginStep (s : State) : State :=
  sampleInterrupts { s with waiting := false, status := .ok }

/-- A bit of the breakpoint mask at the PC: the instruction there is not executed (60_exceptions.md R541, R542). -/
def breakAtPc (s : State) : State :=
  breakAt s.pc s

/-- The end of an iteration whose instruction at `a` raised no exception: a watchpoint hit becomes a Breakpoint at the next
instruction (60_exceptions.md R540, R542). An instruction that raised an exception has cleared `watch_hit`. -/
def endStep (a : Addr) (s : State) : State :=
  if s.watchHit then
    resolveBreakpoint (if s.cfg.watchRollback then a else s.pc) s.pc { s with watchHit := false }
  else s

/-- The word fetched at the PC, with the state after the fetch. -/
def fetchNext (s : State) : Access Word :=
  fetch s.pc s

/-- A prefetch abort at the PC (60_exceptions.md R504, R501). -/
def takePrefetchAbort (s : State) : State :=
  enter .prefetchAbort (s.pc + linkOffset s.cfg .prefetchAbort) s

/-! Placing an instruction where the next fetch is. -/

/-- The state with a word of RAM at the next address fetched: its page is RAM, its breakpoint bit is clear, the core is
initialized and does not stall. -/
def placeWord (w : Word) (s : State) : State :=
  let a := (beginStep s).pc
  { s with
    initialized := true
    waiting := s.waiting && !s.stalled
    bp := maskClear s.bp a
    pages :=
      match pageAt s.pages (pageOf a) with
      | some (.ram p) => setPage s.pages (pageOf a) (.ram (fetchable s.cfg p))
      | some (.device p _) => setPage s.pages (pageOf a) (.ram (fetchable s.cfg p))
      | none => setPage s.pages (pageOf a) (.ram (fetchable s.cfg s.cfg.newPagePerm))
    mem := ramWrite s.cfg.endian s.mem true a w }
where
  /-- The permissions with whatever right a fetch needs. -/
  fetchable (cfg : Config) (p : Perm) : Perm :=
    ⟨p.r || cfg.fetchPerm.r, p.w || cfg.fetchPerm.w, p.x || cfg.fetchPerm.x⟩

end Sys2Proof.Machine
end

