-- ==== Sys2Proof/Machine/Step.lean ====
section
/-! DEFINITION. One step of the machine: one iteration of the run loop (60_exceptions.md R550). -/

namespace Sys2Proof.Machine

/-- The execution of the word `w` fetched at the PC of `s`: the PC advances, the instruction runs, the watchpoints are
looked at. -/
def runWord (w : Word) (s : State) : Host.Outcome State Fault Refusal :=
  match exec (decode s.cfg w) s.advancePc with
  | .next t => .next (endStep s.pc t)
  | .fault f => .fault f
  | .refused r => .refused r

/-- One iteration of the run loop: the wait, the pins, the breakpoint mask, the fetch, the instruction, the watchpoints
(60_exceptions.md R512, R550). Where the iteration ends a `run` call, `status` says with what. -/
def step (s : State) : Host.Outcome State Fault Refusal :=
  if !s.initialized then .next { s with status := .invalidCpuState }
  else if s.stalled then .next { s with status := .waitForInterrupt }
  else if maskBit s.bp (beginStep s).pc then .next (breakAtPc (beginStep s))
  else
    match fetchNext (beginStep s) with
    | .refused r => .refused r
    | .abort t => .next (takePrefetchAbort t)
    | .done w t => runWord w t

/-- The state with an instruction stored where `step` fetches its next one (log entry 17). An instruction is one word, so
the bits above `nbits` are zero. -/
def State.withFetchWord (s : State) (nbits w : Nat) : State :=
  placeWord (BitVec.ofNat 32 (w % 2 ^ min nbits 32)) s

end Sys2Proof.Machine
end

