-- ==== Sys2Proof/Machine/HostCalls.lean ====
section
/-! DEFINITION. The host's calls but `run` (00_scope.md R8): each gives a status and the state after it. They act between
steps (20_memory.md R102, 70_reset_and_hazards.md R603). -/

namespace Sys2Proof.Machine

/-- The requested size rounded up to the page size (20_memory.md R89). -/
def roundedSize (memsize : Nat) : Nat :=
  (memsize + (pageBytes - 1)) / pageBytes * pageBytes

/-- `init(memsize)` with the permissions `INITIAL_PAGE_PERMS` (70_reset_and_hazards.md R600). The parameters and the
model's record of the outside world stay. -/
def hostInit (memsize : Nat) (perms : Nat → Perm) (s : State) : Status × State :=
  if spaceBytes < roundedSize memsize then (.valueError, s)
  else if s.allocFails then (.memoryError, s)
  else
    (.ok, { State.afterInit s.cfg (roundedSize memsize / pageBytes) perms with
      bounded := s.bounded
      draws := s.draws
      deviceReplies := s.deviceReplies
      deviceCalls := s.deviceCalls
      allocFails := s.allocFails })

/-- `cleanup(cpu)` (70_reset_and_hazards.md R601): nothing of the CPU survives. Its status is OK (20_memory.md R125). -/
def hostCleanup (s : State) : Status × State :=
  (.ok, { State.blank s.cfg with
    draws := s.draws
    deviceReplies := s.deviceReplies
    deviceCalls := s.deviceCalls
    allocFails := s.allocFails })

/-- `add_hardware(device)` (20_memory.md R124). -/
def hostAddHardware (d : Device) (s : State) : Status × State :=
  if !s.initialized then (.invalidCpuState, s)
  else if s.cfg.maxHwDevices ≤ s.devices.length then (.maxHardwareDevicesExceeded, s)
  else (.ok, { s with devices := s.devices ++ [{ d with range := none }] })

/-- `map_memory(device, start, end)` of the host (20_memory.md R120, R121); the device is a registry index. -/
def hostMapMemory (k start stop : Nat) (s : State) : Status × State :=
  if !s.initialized then (.invalidCpuState, s) else mapMemory k start stop s

/-- `interrupt(cpu, device_id, code)` of the host: OK whether or not it is dropped (60_exceptions.md R531). -/
def hostInterrupt (deviceId code : Word) (s : State) : Status × State :=
  (.ok, s.interrupt deviceId code)

/-! The debug API (60_exceptions.md R545). The three queries answer a truth value, the other calls a status (20_memory.md
R125): OK, and before `init` invalid-CPU-state with nothing changed (DESIGN CHOICE, log entry 24). -/

def hasBreakpoint (a : Addr) (s : State) : Bool := maskBit s.bp a
def hasReadWatchpoint (a : Addr) (s : State) : Bool := maskBit s.wr a
def hasWriteWatchpoint (a : Addr) (s : State) : Bool := maskBit s.ww a

/-- A debug call that leaves `t`. -/
def debugCall (t s : State) : Status × State :=
  if !s.initialized then (.invalidCpuState, s) else (.ok, t)

def setBreakpoint (a : Addr) (s : State) : Status × State := debugCall { s with bp := maskSet s.bp a } s
def unsetBreakpoint (a : Addr) (s : State) : Status × State := debugCall { s with bp := maskClear s.bp a } s
def setReadWatchpoint (a : Addr) (s : State) : Status × State := debugCall { s with wr := maskSet s.wr a } s
def unsetReadWatchpoint (a : Addr) (s : State) : Status × State := debugCall { s with wr := maskClear s.wr a } s
def setWriteWatchpoint (a : Addr) (s : State) : Status × State := debugCall { s with ww := maskSet s.ww a } s
def unsetWriteWatchpoint (a : Addr) (s : State) : Status × State := debugCall { s with ww := maskClear s.ww a } s
def resetBreakpoints (s : State) : Status × State := debugCall { s with bp := [] } s

/-- `reset_watchpoints`: the spec says it clears "a whole mask" (60_exceptions.md R545; "zero a mask",
70_reset_and_hazards.md R601) and not which of the two; the one call clears both (DESIGN CHOICE, log entry 29). -/
def resetWatchpoints (s : State) : Status × State := debugCall { s with wr := [], ww := [] } s

/-! `load_rom` (20_memory.md R126). -/

/-- The length of the minimum legal ROM: a shorter file is short. -/
def minRomBytes : Nat := 0x28

/-- A big-endian 32-bit length. -/
def romLength (b0 b1 b2 b3 : Byte) : Nat :=
  b0.toNat * 2 ^ 24 + b1.toNat * 2 ^ 16 + b2.toNat * 2 ^ 8 + b3.toNat

/-- The first section of a file and what follows it, if its length fits the window and the file. -/
def romSection (file : List Byte) (window : Nat) : Option (List Byte × List Byte) :=
  match file with
  | b0 :: b1 :: b2 :: b3 :: rest =>
    if romLength b0 b1 b2 b3 ≤ window ∧ romLength b0 b1 b2 b3 ≤ rest.length then
      some (rest.take (romLength b0 b1 b2 b3), rest.drop (romLength b0 b1 b2 b3))
    else none
  | _ => none

/-- Byte i of a section goes to destination + i. -/
def storeBytes (m : List Host.Cell) (a : Nat) (bytes : List Byte) : List Host.Cell :=
  match bytes with
  | [] => m
  | b :: rest => storeBytes (memSetByte m a b) (a + 1) rest

/-- Whether every byte of a section falls on a RAM page (log entry 15). -/
def sectionOnRam (t : List (Nat × Page)) (a : Nat) (bytes : List Byte) : Bool :=
  (List.range bytes.length).all fun i =>
    match pageAt t ((a + i) / pageBytes) with
    | some (.ram _) => true
    | some (.device ..) => false
    | none => false

/-- `load_rom`: one section, or two; a failure changes nothing. -/
def hostLoadRom (file : List Byte) (s : State) : Status × State :=
  if !s.initialized then (.invalidCpuState, s)
  else if file.length < minRomBytes then (s.cfg.romErrorStatus, s)
  else
    match romSection file (s.cfg.tapeBoundary - s.cfg.bootRomBase) with
    | none => (s.cfg.romErrorStatus, s)
    | some (boot, rest) =>
      if !sectionOnRam s.pages s.cfg.bootRomBase boot then (s.cfg.romErrorStatus, s)
      else if rest.isEmpty then (.ok, { s with mem := storeBytes s.mem s.cfg.bootRomBase boot })
      else
        match romSection rest s.cfg.maxSymbols with
        | none => (s.cfg.romErrorStatus, s)
        | some (symbols, _) =>
          if !sectionOnRam s.pages s.cfg.symbolsBase symbols then (s.cfg.romErrorStatus, s)
          else
            (.ok, { s with
              mem := storeBytes (storeBytes s.mem s.cfg.bootRomBase boot) s.cfg.symbolsBase symbols })

end Sys2Proof.Machine
end

