-- ==== Sys2Proof/Machine/HostRun.lean ====
section
/-! DEFINITION. The host's `run(count)` (60_exceptions.md R550, R551): the loop whose iteration is `step`. -/

namespace Sys2Proof.Machine

/-- `fuel` iterations of the loop, fewer if one ends the call. -/
def runLoop (fuel : Nat) (s : State) : Host.Outcome State Fault Refusal :=
  match fuel with
  | 0 => .next s
  | n + 1 =>
    match step s with
    | .next t => if t.status = .ok then runLoop n t else .next t
    | .fault f => .fault f
    | .refused r => .refused r

/-- `run(count)` with count ≥ 0: the status it returns is `status` of the state it ends in. -/
def runBounded (count : Nat) (s : State) : Host.Outcome State Fault Refusal :=
  if !s.initialized then .next { s with status := .invalidCpuState }
  else runLoop count { s with bounded := true, status := .ok }

/-- The first `fuel` iterations of `run(-1)`, fewer if the core stalls. -/
def runUnbounded (fuel : Nat) (s : State) : Host.Outcome State Fault Refusal :=
  if !s.initialized then .next { s with status := .invalidCpuState }
  else runLoop fuel { s with bounded := false, status := .ok }

end Sys2Proof.Machine
end

