-- ==== Sys2Proof/Safety.lean ====
section
/-! DEFINITION. What a good state is, and what a safe run is, in the terms the statements use. -/

namespace Sys2Proof.Machine

/-- Every device page belongs to a registered device (20_memory.md R82, R121). -/
def devicesRegistered (s : State) : Bool :=
  s.pages.all fun x =>
    match x.2 with
    | .ram _ => true
    | .device _ dev => decide (dev < s.devices.length)

/-- The states a machine can be in between two steps: parameters as the spec requires them, RAM, page table and masks in
canonical form, device pages of registered devices only, and no watchpoint hit left over (60_exceptions.md R550). -/
structure State.Good (s : State) : Prop where
  cfg : s.cfg.Wf
  mem : Memory.wf s.mem = true
  pages : pagesWf s.pages = true
  bp : maskWf s.bp = true
  wr : maskWf s.wr = true
  ww : maskWf s.ww = true
  registered : devicesRegistered s = true
  capacity : s.devices.length ≤ s.cfg.maxHwDevices
  watch : s.watchHit = false

/-- A run of `n` steps that meets no refusal. -/
def SafeRun (n : Nat) (s : State) : Prop :=
  match n with
  | 0 => True
  | k + 1 => ∃ t, step s = .next t ∧ SafeRun k t

end Sys2Proof.Machine
end

