-- ==== Sys2Proof/Certificates/Slice0/Obligations.lean ====
section
/-! DEFINITION. The statements for the provers. The vocabulary they share comes first. While an instruction runs, `s.pc` is
A + 4 for its address A = `s.instrAddr` (10_state.md R43). -/

namespace Sys2Proof.Machine

/-! Frames. -/

/-- Every register slot but R15 and those listed holds what it held. -/
def SlotsKept (s t : State) (except : List Slot) : Prop :=
  ∀ k : Slot, k ≠ .r15 → k ∉ except → t.getSlot k = s.getSlot k

/-- Nothing but registers and R15 differs. -/
def RegsOnly (s t : State) : Prop :=
  t = { s with regs := t.regs, r15 := t.r15 }

/-- Nothing but registers, R15, RAM and `watch_hit` differs. -/
def RegsMemWatch (s t : State) : Prop :=
  t = { s with regs := t.regs, r15 := t.r15, mem := t.mem, watchHit := t.watchHit }

/-- N, Z, C and V of `t`. -/
def FlagsAre (t : State) (n z c v : Bool) : Prop :=
  t.flagN = n ∧ t.flagZ = z ∧ t.flagC = c ∧ t.flagV = v

/-- I, F, the PC and the mode are kept: R15[27:0]. -/
def LowKept (s t : State) : Prop :=
  t.r15.extractLsb' 0 28 = s.r15.extractLsb' 0 28

/-- N, Z, C, V, I, F and the mode are kept: R15[31:26] and R15[1:0]. -/
def PsrKept (s t : State) : Prop :=
  t.r15.extractLsb' 26 6 = s.r15.extractLsb' 26 6 ∧ t.r15.extractLsb' 0 2 = s.r15.extractLsb' 0 2

/-! Instructions by shape. -/

/-- The condition field of an instruction: bits 31:28 of its word (30_encoding.md R141). -/
def condOf (i : Instr) : Cond :=
  Cond.ofBits ((encode i).extractLsb' 28 4)

/-- The operand forms of a data-processing instruction (30_encoding.md R151 to R153). -/
inductive Op2 where
  | imm (rot : BitVec 4) (imm8 : BitVec 8)
  | rsi (shamt : BitVec 5) (sh : ShiftType) (rm : RegNum)
  | rsr (rs : RegNum) (sh : ShiftType) (rm : RegNum)

/-- The data-processing instruction of an operation and an operand form. -/
def dpInstr (op : DpOp) (c : Cond) (sf : Bool) (rn rd : RegNum) (o : Op2) : Instr :=
  match o with
  | .imm rot imm8 => .dpImm op c sf rn rd rot imm8
  | .rsi shamt sh rm => .dpRsi op c sf rn rd shamt sh rm
  | .rsr rs sh rm => .dpRsr op c sf rn rd rs sh rm

/-- `op2` and `sc` of an operand form (40_data_processing.md R205). -/
def op2Value (o : Op2) (s : State) : Word × Bool :=
  match o with
  | .imm rot imm8 => op2Imm rot imm8 s
  | .rsi shamt sh rm => op2Rsi shamt sh rm s
  | .rsr rs sh rm => op2Rsr rs sh rm s

/-- TST, TEQ, CMP, CMN (30_encoding.md R164). -/
def IsTest (op : DpOp) : Prop :=
  op = .tst ∨ op = .teq ∨ op = .cmp ∨ op = .cmn

/-- AND, EOR, TST, TEQ, ORR, MOV, BIC, MVN (30_encoding.md R164). -/
def IsLogical (op : DpOp) : Prop :=
  op = .and ∨ op = .eor ∨ op = .tst ∨ op = .teq ∨ op = .orr ∨ op = .mov ∨ op = .bic ∨ op = .mvn

/-- The result column of the opcode table (30_encoding.md R164): `a` is Rn, `b` the second operand, `c` the carry flag. -/
def tableResult (op : DpOp) (a b : Word) (c : Bool) : Word :=
  match op with
  | .and | .tst => a &&& b
  | .eor | .teq => a ^^^ b
  | .sub | .cmp => a - b
  | .rsb => b - a
  | .add | .cmn => a + b
  | .adc => a + b + (if c then 1#32 else 0#32)
  | .sbc => a - b - (if c then 0#32 else 1#32)
  | .rsc => b - a - (if c then 0#32 else 1#32)
  | .orr => a ||| b
  | .mov => b
  | .bic => a &&& ~~~b
  | .mvn => ~~~b

/-- The carry of an arithmetic operation in exact numbers: a carry out of 32 bits for an addition, no borrow for a
subtraction (40_data_processing.md R206, R207). -/
def exactCarry (op : DpOp) (a b : Word) (c : Bool) : Prop :=
  match op with
  | .add | .cmn => 2 ^ 32 ≤ a.toNat + b.toNat
  | .adc => 2 ^ 32 ≤ a.toNat + b.toNat + (if c then 1 else 0)
  | .sub | .cmp => b.toNat ≤ a.toNat
  | .sbc => b.toNat + (if c then 0 else 1) ≤ a.toNat
  | .rsb => a.toNat ≤ b.toNat
  | .rsc => a.toNat + (if c then 0 else 1) ≤ b.toNat
  | .and | .eor | .tst | .teq | .orr | .mov | .bic | .mvn => False

/-- The signed value an arithmetic operation would have without wrapping. -/
def exactSigned (op : DpOp) (a b : Word) (c : Bool) : Int :=
  match op with
  | .add | .cmn => a.toInt + b.toInt
  | .adc => a.toInt + b.toInt + (if c then 1 else 0)
  | .sub | .cmp => a.toInt - b.toInt
  | .sbc => a.toInt - b.toInt - (if c then 0 else 1)
  | .rsb => b.toInt - a.toInt
  | .rsc => b.toInt - a.toInt - (if c then 0 else 1)
  | .and | .eor | .tst | .teq | .orr | .mov | .bic | .mvn => 0

/-- Two's-complement overflow: the exact signed value is no 32-bit number (40_data_processing.md R206). -/
def exactOverflow (op : DpOp) (a b : Word) (c : Bool) : Prop :=
  ¬ (-2 ^ 31 ≤ exactSigned op a b c ∧ exactSigned op a b c < 2 ^ 31)

/-- MUL or MLA. -/
def mulInstr (acc : Bool) (c : Cond) (sf : Bool) (rd rn rs rm : RegNum) : Instr :=
  if acc then .mla c sf rd rn rs rm else .mul c sf rd rn rs rm

/-- SWP or SWPB. -/
def swapInstr (byte : Bool) (c : Cond) (rn rd rm : RegNum) : Instr :=
  if byte then .swpb c rn rd rm else .swp c rn rd rm

/-- The offset forms of a single data transfer (30_encoding.md R156, R157). -/
inductive Offset where
  | imm (imm12 : BitVec 12)
  | reg (shamt : BitVec 5) (sh : ShiftType) (rm : RegNum)

/-- LDR, STR, LDRB or STRB with an offset form. -/
def sdtInstr (load byte : Bool) (c : Cond) (pf uf wf : Bool) (rn rd : RegNum) (o : Offset) : Instr :=
  match o with
  | .imm imm12 => .sdtImm load byte c pf uf wf rn rd imm12
  | .reg shamt sh rm => .sdtReg load byte c pf uf wf rn rd shamt sh rm

/-- The offset (43_single_transfer.md R300). -/
def offsetValue (o : Offset) (s : State) : Word :=
  match o with
  | .imm imm12 => imm12.setWidth 32
  | .reg shamt sh rm => (shiftImm sh shamt (s.reg rm) s.flagC).1

/-- The moved address (43_single_transfer.md R300). -/
def sdtMoved (uf : Bool) (rn : RegNum) (o : Offset) (s : State) : Word :=
  if uf then s.readBase rn + offsetValue o s else s.readBase rn - offsetValue o s

/-- The access address (43_single_transfer.md R300). -/
def sdtAddr (pf uf : Bool) (rn : RegNum) (o : Offset) (s : State) : Word :=
  if pf then sdtMoved uf rn o s else s.readBase rn

/-- Whether the transfer writes its base back (43_single_transfer.md R301). -/
def WritesBack (pf wf : Bool) : Prop :=
  pf = false ∨ wf = true

/-- The operand combinations the spec gives a meaning (43_single_transfer.md R301, R307). -/
def SdtAllowed (load pf wf : Bool) (rn rd : RegNum) (o : Offset) : Prop :=
  ¬ (pf = false ∧ wf = true) ∧ (WritesBack pf wf → rn ≠ 15#4) ∧ (load = true → WritesBack pf wf → rn ≠ rd) ∧
  (match o with
   | .imm _ => True
   | .reg _ _ rm => rm ≠ 15#4)

/-! Memory. -/

/-- The number of bytes an access moves. -/
def accessBytes (byte : Bool) : Nat :=
  if byte then 1 else 4

/-- The number RAM holds at `a`: a byte, or a little-endian word (20_memory.md R85, R95). -/
def ramNumber (m : List Host.Cell) (byte : Bool) (a : Nat) : Nat :=
  if byte then (memByte m a).toNat
  else (memByte m a).toNat + 2 ^ 8 * (memByte m (a + 1)).toNat + 2 ^ 16 * (memByte m (a + 2)).toNat +
    2 ^ 24 * (memByte m (a + 3)).toNat

/-- RAM after `v` is stored at `a`: the bytes stored, and every other byte as before (20_memory.md R96). -/
def Stored (m m' : List Host.Cell) (byte : Bool) (a : Nat) (v : Word) : Prop :=
  ∀ b : Nat, memByte m' b =
    if a ≤ b ∧ b < a + accessBytes byte then byteOfWord v (b - a) else memByte m b

/-- The access rights of a page `p` let the mode of `s` do what needs the right `right` (20_memory.md R92). -/
def Permitted (s : State) (right : Bool) : Prop :=
  s.mode ∈ s.cfg.permCheckModes → right = true

/-- A data read at `a` reaches a RAM page. -/
def RamReadable (s : State) (byte : Bool) (a : Addr) : Prop :=
  ∃ p : Perm, pageAt s.pages (a.toNat / 4096) = some (.ram p) ∧ Permitted s p.r ∧ (byte = false → a.toNat % 4 = 0)

/-- A data write at `a` reaches a RAM page. -/
def RamWritable (s : State) (byte : Bool) (a : Addr) : Prop :=
  ∃ p : Perm, pageAt s.pages (a.toNat / 4096) = some (.ram p) ∧ Permitted s p.w ∧ (byte = false → a.toNat % 4 = 0)

/-- A data read at `a` reaches a page of the device `dev`. -/
def DeviceReadable (s : State) (byte : Bool) (a : Addr) (dev : Nat) : Prop :=
  ∃ p : Perm, pageAt s.pages (a.toNat / 4096) = some (.device p dev) ∧ Permitted s p.r ∧
    (byte = false → a.toNat % 4 = 0)

/-- A data write at `a` reaches a page of the device `dev`. -/
def DeviceWritable (s : State) (byte : Bool) (a : Addr) (dev : Nat) : Prop :=
  ∃ p : Perm, pageAt s.pages (a.toNat / 4096) = some (.device p dev) ∧ Permitted s p.w ∧
    (byte = false → a.toNat % 4 = 0)

/-- A data access at `a` faults in the walk (20_memory.md R93): an absent page, a right missing in a checked mode, or a
misaligned word. -/
def AccessFaults (s : State) (write byte : Bool) (a : Addr) : Prop :=
  pageAt s.pages (a.toNat / 4096) = none ∨
  (∃ p : Page, pageAt s.pages (a.toNat / 4096) = some p ∧ s.mode ∈ s.cfg.permCheckModes ∧
    (if write then p.perm.w else p.perm.r) = false) ∨
  (byte = false ∧ a.toNat % 4 ≠ 0)

/-! Exceptions. -/

/-- The state `t` in which `s` has entered an exception with link address `link` (60_exceptions.md R511): mode, vector,
masks and link; N, Z, C, V and every other register are kept. -/
def Entered (m : Mode) (vector : Addr) (setsF : Bool) (link : Addr) (s t : State) : Prop :=
  t.mode = m ∧ t.pc = vector ∧ t.flagI = true ∧ t.flagF = (setsF || s.flagF) ∧
  FlagsAre t s.flagN s.flagZ s.flagC s.flagV ∧
  (t.getSlot (slotOf m 14#4)).extractLsb' 26 6 = s.r15.extractLsb' 26 6 ∧
  (t.getSlot (slotOf m 14#4)).extractLsb' 2 24 = link.extractLsb' 2 24 ∧
  (t.getSlot (slotOf m 14#4)).extractLsb' 0 2 = s.r15.extractLsb' 0 2 ∧
  SlotsKept s t [slotOf m 14#4]

/-- An exception of the executing instruction, entered in SVC mode, that leaves all else as it was but `watch_hit`, which
is cleared (60_exceptions.md R501, R511, R512). -/
def Raised (vector link : Addr) (s t : State) : Prop :=
  Entered .svc vector false link s t ∧
  t = { s with regs := t.regs, r15 := t.r15, watchHit := false }

/-! Block transfers. -/

/-- How many listed registers have a number below `i` (44_block_transfer.md R342). -/
def rankOf (reglist : BitVec 16) (i : Nat) : Nat :=
  ((List.range i).filter fun j => reglist.getLsbD j).length

/-- Where the listed register `i` is transferred (44_block_transfer.md R342, R343). -/
def blockAddr (pf uf : Bool) (rn : RegNum) (reglist : BitVec 16) (i : Nat) (s : State) : Addr :=
  (blockStart pf uf (s.readBase rn) reglist + BitVec.ofNat 32 (4 * rankOf reglist i)).setWidth 26

/-- The value written back (44_block_transfer.md R340). -/
def blockNewBase (uf : Bool) (rn : RegNum) (reglist : BitVec 16) (s : State) : Word :=
  if uf then s.readBase rn + BitVec.ofNat 32 (4 * rankOf reglist 16)
  else s.readBase rn - BitVec.ofNat 32 (4 * rankOf reglist 16)

/-- The value STM stores for the listed register `i` (44_block_transfer.md R344, R346). -/
def stmStored (uf sf wf : Bool) (rn : RegNum) (reglist : BitVec 16) (i : RegNum) (s : State) : Word :=
  if i = 15#4 then s.readFull 15#4
  else if sf then s.userReg i
  else if wf = true ∧ i = rn then
    if rankOf reglist i.toNat = 0 then s.readBase rn else blockNewBase uf rn reglist s
  else s.reg i

/-- The slot LDM loads the listed register `i` into (44_block_transfer.md R346). -/
def ldmSlot (sf : Bool) (reglist : BitVec 16) (i : RegNum) (s : State) : Slot :=
  if sf = true ∧ reglist.getLsbD 15 = false then slotOf .usr i else slotOf s.mode i

/-- The combinations the spec gives a meaning (44_block_transfer.md R347). -/
def BdtAllowed (load sf wf : Bool) (rn : RegNum) (reglist : BitVec 16) : Prop :=
  reglist ≠ 0#16 ∧ (wf = true → rn ≠ 15#4) ∧
  (wf = true → ¬ (sf = true ∧ ¬ (load = true ∧ reglist.getLsbD 15 = true)))

/-- LDM or STM. -/
def bdtInstr (load : Bool) (c : Cond) (pf uf sf wf : Bool) (rn : RegNum) (reglist : BitVec 16) : Instr :=
  if load then .ldm c pf uf sf wf rn reglist else .stm c pf uf sf wf rn reglist

/-- Whether a listed register of a block transfer stands at a word marked in `mask` (20_memory.md R100). -/
def blockMarked (mask : List Nat) (pf uf : Bool) (rn : RegNum) (reglist : BitVec 16) (s : State) : Bool :=
  (List.range 16).any fun i => reglist.getLsbD i && maskBit mask (blockAddr pf uf rn reglist i s)

/-- The writes of an STM for the registers below `n`, on whatever pages: `v i` is the state before the access of register
`i`, and none aborts (44_block_transfer.md R342, R349). -/
def WritesBelow (n : Nat) (pf uf sf wf : Bool) (rn : RegNum) (reglist : BitVec 16) (s : State) (v : Nat → State) : Prop :=
  v 0 = s ∧
  ∀ i : Nat, i < n →
    if reglist.getLsbD i then
      memWrite true (blockAddr pf uf rn reglist i s) (stmStored uf sf wf rn reglist (BitVec.ofNat 4 i) s) (v i) =
        .done () (v (i + 1))
    else v (i + 1) = v i

/-- The reads of an LDM, on whatever pages: `v i` is the state before the access of register `i`, `ok i` whether it
succeeds and `out i` what it then gives; R15 is not read once an access has aborted (44_block_transfer.md R348, R349). -/
def Reads (pf uf : Bool) (rn : RegNum) (reglist : BitVec 16) (s : State) (v : Nat → State) (ok : Nat → Bool)
    (out : Nat → Word) : Prop :=
  v 0 = s ∧
  ∀ i : Nat, i < 16 →
    if reglist.getLsbD i = true ∧ (i = 15 → ∀ k : Nat, k < 15 → reglist.getLsbD k = true → ok k = true) then
      memRead true (blockAddr pf uf rn reglist i s) (v i) =
        if ok i then .done (out i) (v (i + 1)) else .abort (v (i + 1))
    else v (i + 1) = v i

/-- The register slots after an LDM that loaded `out i` into each listed register `i` with `ok i`: the base written back
unless it is loaded, every other slot kept (44_block_transfer.md R344, R346). -/
def LdmSlots (uf sf wf : Bool) (rn : RegNum) (reglist : BitVec 16) (s t : State) (ok : Nat → Bool) (out : Nat → Word) :
    Prop :=
  (∀ i : RegNum, i ≠ 15#4 → reglist.getLsbD i.toNat = true → ok i.toNat = true →
    t.getSlot (ldmSlot sf reglist i s) = out i.toNat) ∧
  (∀ k : Slot, k ≠ .r15 →
    (∀ i : RegNum, reglist.getLsbD i.toNat = true → ok i.toNat = true → k ≠ ldmSlot sf reglist i s) →
    t.getSlot k = if wf = true ∧ k = slotOf s.mode rn then blockNewBase uf rn reglist s else s.getSlot k)

/-- R15 after an LDM whose word for R15, if it is listed, is `v` (44_block_transfer.md R346). -/
def LdmR15 (sf : Bool) (reglist : BitVec 16) (s t : State) (v : Word) : Prop :=
  (reglist.getLsbD 15 = false → t.r15 = s.r15) ∧
  (reglist.getLsbD 15 = true →
    (sf = false → PsrKept s t ∧ t.r15.extractLsb' 2 24 = v.extractLsb' 2 24) ∧
    (sf = true → s.mode ≠ .usr → t.r15 = v) ∧
    (sf = true → s.mode = .usr → ∀ j : Nat, j < 32 →
      t.r15.getLsbD j = if s.cfg.userR15WriteMask.getLsbD j then v.getLsbD j else s.r15.getLsbD j))

/-! Words without a meaning. -/

/-- What an instruction does under a value of `UNDEF_OUTCOME` or `CDT_OUTCOME` (60_exceptions.md R503). -/
def UndefinedBy (o : UndefOutcome) (i : Instr) (s : State) : Prop :=
  (o = .exception → ∃ t : State, exec i s = .next t ∧
    Raised 0x04#26 (s.instrAddr + s.cfg.linkValue.undefinedInstruction) s t) ∧
  (o = .unknownOpcode → exec i s = .next { s with status := .unknownOpcode })

/-! Coprocessors. -/

/-- The number of a virtual coprocessor (46_swi_coprocessor.md R410). -/
def cpNumber (cfg : Config) (k : Coproc) : BitVec 4 :=
  match k with
  | .hwmgr => cfg.cpHwmgr
  | .mmu => cfg.cpMmu
  | .intctl => cfg.cpIntctl

/-- A CDP to the hardware manager. -/
def hwCdp (cfg : Config) (c : Cond) (op1 : BitVec 4) (crn crd : CrNum) (op2 : BitVec 3) (crm : CrNum) : Instr :=
  .cdp c op1 crn crd cfg.cpHwmgr op2 crm

/-- The hardware manager's register `crd` holds `v` and nothing else differs. -/
def HwResult (crd : CrNum) (v : Word) (s t : State) : Prop :=
  t.cr .hwmgr crd = v ∧ (∀ n : CrNum, n ≠ crd → t.cr .hwmgr n = s.cr .hwmgr n) ∧
  t = { s with crHwmgr := t.crHwmgr }

/-! A step. -/

/-- The core is initialized, does not wait, has no interrupt to take and no breakpoint at the PC: the step goes straight to
the fetch (60_exceptions.md R550). -/
def Fetches (s : State) : Prop :=
  s.initialized = true ∧ s.waiting = false ∧ s.fiqPending = false ∧ s.irqPending = false ∧ maskBit s.bp s.pc = false

end Sys2Proof.Machine

open Sys2Proof Sys2Proof.Machine

/-! Encoding. -/

/-- Words written out from the encodings of 30_encoding.md, one or more of every family, decode to what they stand for.
Note: the decode masks are the spec's decision D19. -/
def Obligations.DecodeSpecWords : Prop :=
  decode Config.std 0xE0910002#32 = .addRsi .al true 1#4 0#4 0#5 .lsl 2#4 ∧
  decode Config.std 0xE3110102#32 = .tstImm .al true 1#4 0#4 1#4 2#8 ∧
  decode Config.std 0xE1B00021#32 = .movRsi .al true 0#4 0#4 0#5 .lsr 1#4 ∧
  decode Config.std 0xE0334291#32 = .mla .al true 3#4 4#4 2#4 1#4 ∧
  decode Config.std 0xE1410092#32 = .swpb .al 1#4 0#4 2#4 ∧
  decode Config.std 0xE4010004#32 = .strImm .al false false false 1#4 0#4 4#12 ∧
  decode Config.std 0xE7F10102#32 = .ldrbReg .al true true true 1#4 0#4 2#5 .lsl 2#4 ∧
  decode Config.std 0xE92D4003#32 = .stm .al true false false true 13#4 0x4003#16 ∧
  decode Config.std 0xE8FD8001#32 = .ldm .al false true true true 13#4 0x8001#16 ∧
  decode Config.std 0xEB0003FE#32 = .bl .al 0x3FE#24 ∧
  decode Config.std 0xEF000011#32 = .swi .al 0x11#24 ∧
  decode Config.std 0xEE010210#32 = .mcr .al 0#3 1#4 0#4 2#4 0#3 0#4 ∧
  decode Config.std 0xEE112210#32 = .mrc .al 0#3 1#4 2#4 2#4 0#3 0#4

/-- The decoder reads back every instruction the encoder writes, for every value of the parameters. Note: the decode
masks and ignored fields are the spec's decisions D19 and D56; the encoder and well-formedness are the model's. -/
def Obligations.DecodeEncode : Prop :=
  ∀ (cfg : Config) (i : Instr), i.wf cfg = true → decode cfg (encode i) = i

/-- Every word is the encoding of exactly the instruction it decodes to, and that instruction is well formed. Note: the
decode masks and ignored fields are the spec's decisions D19 and D56; the encoder and well-formedness are the model's.
-/
def Obligations.EncodeDecode : Prop :=
  ∀ (cfg : Config) (w : Word), encode (decode cfg w) = w ∧ (decode cfg w).wf cfg = true

/-! Conditions. -/

/-- The condition table (30_encoding.md R144), on the flags R15[31:28] as they stand. Note: the predicates are general
knowledge by the spec's mark, NV its decision D18. -/
def Obligations.ConditionTable : Prop :=
  ∀ s : State,
    let n := s.r15.getLsbD 31
    let z := s.r15.getLsbD 30
    let c := s.r15.getLsbD 29
    let v := s.r15.getLsbD 28
    (s.passes (Cond.ofBits 0b0000#4) ↔ z = true) ∧
    (s.passes (Cond.ofBits 0b0001#4) ↔ z = false) ∧
    (s.passes (Cond.ofBits 0b0010#4) ↔ c = true) ∧
    (s.passes (Cond.ofBits 0b0011#4) ↔ c = false) ∧
    (s.passes (Cond.ofBits 0b0100#4) ↔ n = true) ∧
    (s.passes (Cond.ofBits 0b0101#4) ↔ n = false) ∧
    (s.passes (Cond.ofBits 0b0110#4) ↔ v = true) ∧
    (s.passes (Cond.ofBits 0b0111#4) ↔ v = false) ∧
    (s.passes (Cond.ofBits 0b1000#4) ↔ c = true ∧ z = false) ∧
    (s.passes (Cond.ofBits 0b1001#4) ↔ c = false ∨ z = true) ∧
    (s.passes (Cond.ofBits 0b1010#4) ↔ n = v) ∧
    (s.passes (Cond.ofBits 0b1011#4) ↔ n ≠ v) ∧
    (s.passes (Cond.ofBits 0b1100#4) ↔ z = false ∧ n = v) ∧
    (s.passes (Cond.ofBits 0b1101#4) ↔ z = true ∨ n ≠ v) ∧
    s.passes (Cond.ofBits 0b1110#4) = true ∧
    s.passes (Cond.ofBits 0b1111#4) = false

/-- An instruction whose condition fails has no effect at all, whatever it is (30_encoding.md R141, R145). Note: the
order of R141 is the spec's derivation, NV its decision D18. -/
def Obligations.FailedConditionSkips : Prop :=
  ∀ (i : Instr) (s : State),
    (s.passes (condOf i) = false → exec i s = .next s) ∧ (condOf i = .nv → exec i s = .next s)

/-- A step fetches the word at the PC and runs the instruction it decodes to with the PC one word on; what `exec`
answers is what the step answers, unless a watchpoint was hit (60_exceptions.md R550). The fetch may be from any page
that answers: RAM gives the word it holds, a device page what its `read_word` returns (20_memory.md R94). Note: the
order of a step is the spec's decision D42; what ends a run call is in `status`, log entry 7; the device's answer is the
model's input, log entry 9. -/
def Obligations.StepRunsDecoded : Prop :=
  (∀ (s v : State) (w : Word), Fetches s → fetch s.pc { s with status := .ok } = .done w v →
    let i := decode s.cfg w
    let u := v.advancePc
    u.pc = s.pc + 4#26 ∧ PsrKept s u ∧ u = { v with r15 := u.r15 } ∧
    (∀ t : State, exec i u = .next t → t.watchHit = false → step s = .next t) ∧
    (∀ t : State, exec i u = .next t → t.watchHit = true → step s = .next (endStep s.pc t)) ∧
    (∀ r : Refusal, exec i u = .refused r → step s = .refused r)) ∧
  (∀ (s : State) (p : Perm), pageAt s.pages (s.pc.toNat / 4096) = some (.ram p) →
    (s.mode ∈ s.cfg.permCheckModes → permAllows s.cfg .fetch p = true) →
    fetch s.pc s = .done (memWord s.mem s.pc.toNat) s) ∧
  (∀ (s : State) (p : Perm) (dev : Nat) (d : Device) (r : DeviceReply) (rest : List DeviceReply),
    pageAt s.pages (s.pc.toNat / 4096) = some (.device p dev) →
    (s.mode ∈ s.cfg.permCheckModes → permAllows s.cfg .fetch p = true) →
    s.devices[dev]? = some d → d.readWord = true → s.deviceReplies = r :: rest → r.reenters = false → r.fails = false →
    ∃ v : State, fetch s.pc s = .done r.value v ∧
      v.deviceCalls = .readWord dev (s.pc.setWidth 12) :: s.deviceCalls ∧ v.deviceReplies = rest ∧
      v = { s with
        deviceCalls := v.deviceCalls, deviceReplies := v.deviceReplies, pinIrq := v.pinIrq, pinFiq := v.pinFiq,
        lastInterrupt := v.lastInterrupt } ∧
      (r.interrupt = none → v.pinIrq = s.pinIrq ∧ v.pinFiq = s.pinFiq ∧ v.lastInterrupt = s.lastInterrupt))

/-! Registers and operands. -/

/-- The effective-register table (10_state.md R32); reading a register after writing one (R35); and a change of mode,
which moves no data (R33). -/
def Obligations.RegisterBanks : Prop :=
  (∀ (m : Mode) (r : RegNum),
    slotOf m r =
      if r.toNat = 15 then .r15
      else if m = .fiq ∧ 8 ≤ r.toNat then .fiq (Fin.ofNat 7 (r.toNat - 8))
      else if m = .irq ∧ 13 ≤ r.toNat then .irq (Fin.ofNat 2 (r.toNat - 13))
      else if m = .svc ∧ 13 ≤ r.toNat then .svc (Fin.ofNat 2 (r.toNat - 13))
      else .user (Fin.ofNat 15 r.toNat)) ∧
  (∀ (s : State) (r q : RegNum) (v : Word), r ≠ 15#4 → q ≠ 15#4 →
    (s.setReg r v).reg q = (if q = r then v else s.reg q) ∧ (s.setReg r v).r15 = s.r15) ∧
  (∀ (s : State) (q : RegNum) (v : Word), q ≠ 15#4 →
    ({ s with r15 := v } : State).reg q = s.getSlot (slotOf (modeOfBits (v.extractLsb' 0 2)) q))

/-- R15 as an operand (10_state.md R45), the other registers as operands, and the immediate operand (30_encoding.md
R165). Note: the R15 forms are the spec's decision D5, the rotated immediate's carry its decision D22. -/
def Obligations.OperandValues : Prop :=
  (∀ s : State,
    (s.readBase 15#4).toNat = (s.instrAddr.toNat + 8) % 2 ^ 26 ∧
    (s.readFull 15#4).extractLsb' 26 6 = s.r15.extractLsb' 26 6 ∧
    (s.readFull 15#4).extractLsb' 2 24 = (s.instrAddr + 8#26).extractLsb' 2 24 ∧
    (s.readFull 15#4).extractLsb' 0 2 = s.r15.extractLsb' 0 2 ∧
    (s.readNoMode 15#4).extractLsb' 26 6 = s.r15.extractLsb' 26 6 ∧
    (s.readNoMode 15#4).extractLsb' 2 24 = (s.instrAddr + 8#26).extractLsb' 2 24 ∧
    (s.readNoMode 15#4).extractLsb' 0 2 = 0#2) ∧
  (∀ (s : State) (r : RegNum), r ≠ 15#4 →
    s.readBase r = s.reg r ∧ s.readFull r = s.reg r ∧ s.readNoMode r = s.reg r) ∧
  (∀ (s : State) (rot : BitVec 4) (imm8 : BitVec 8),
    (∀ i : Nat, i < 32 →
      (op2Imm rot imm8 s).1.getLsbD i = imm8.getLsbD ((i + 2 * rot.toNat) % 32)) ∧
    (op2Imm rot imm8 s).2 = if rot = 0#4 then s.flagC else (op2Imm rot imm8 s).1.getLsbD 31)

/-- The barrel shifter in numbers (40_data_processing.md R201 to R204): LSL multiplies, LSR and ASR divide, ROR moves
bits around, with the carry of each case of the tables. Note: the cases the source does not list are the spec's decision
D23. -/
def Obligations.BarrelShifter : Prop :=
  ∀ (v : Word) (cin : Bool) (a : BitVec 5) (n : BitVec 8),
    -- LSL
    (a = 0#5 → shiftImm .lsl a v cin = (v, cin)) ∧
    (a ≠ 0#5 → (shiftImm .lsl a v cin).1.toNat = v.toNat * 2 ^ a.toNat % 2 ^ 32 ∧
      (shiftImm .lsl a v cin).2 = v.getLsbD (32 - a.toNat)) ∧
    (1 ≤ n.toNat → n.toNat ≤ 31 → (shiftReg .lsl n v cin).1.toNat = v.toNat * 2 ^ n.toNat % 2 ^ 32 ∧
      (shiftReg .lsl n v cin).2 = v.getLsbD (32 - n.toNat)) ∧
    (n.toNat = 32 → shiftReg .lsl n v cin = (0#32, v.getLsbD 0)) ∧
    (32 < n.toNat → shiftReg .lsl n v cin = (0#32, false)) ∧
    -- LSR
    (a = 0#5 → shiftImm .lsr a v cin = (0#32, v.getLsbD 31)) ∧
    (a ≠ 0#5 → (shiftImm .lsr a v cin).1.toNat = v.toNat / 2 ^ a.toNat ∧
      (shiftImm .lsr a v cin).2 = v.getLsbD (a.toNat - 1)) ∧
    (1 ≤ n.toNat → n.toNat ≤ 31 → (shiftReg .lsr n v cin).1.toNat = v.toNat / 2 ^ n.toNat ∧
      (shiftReg .lsr n v cin).2 = v.getLsbD (n.toNat - 1)) ∧
    (n.toNat = 32 → shiftReg .lsr n v cin = (0#32, v.getLsbD 31)) ∧
    (32 < n.toNat → shiftReg .lsr n v cin = (0#32, false)) ∧
    -- ASR
    (a = 0#5 → shiftImm .asr a v cin = (if v.getLsbD 31 then 0xFFFFFFFF#32 else 0#32, v.getLsbD 31)) ∧
    (a ≠ 0#5 → (shiftImm .asr a v cin).1.toInt = v.toInt / 2 ^ a.toNat ∧
      (shiftImm .asr a v cin).2 = v.getLsbD (a.toNat - 1)) ∧
    (1 ≤ n.toNat → n.toNat ≤ 31 → (shiftReg .asr n v cin).1.toInt = v.toInt / 2 ^ n.toNat ∧
      (shiftReg .asr n v cin).2 = v.getLsbD (n.toNat - 1)) ∧
    (32 ≤ n.toNat → shiftReg .asr n v cin = (if v.getLsbD 31 then 0xFFFFFFFF#32 else 0#32, v.getLsbD 31)) ∧
    -- ROR and RRX
    (a = 0#5 → (∀ i : Nat, i < 31 → (shiftImm .ror a v cin).1.getLsbD i = v.getLsbD (i + 1)) ∧
      (shiftImm .ror a v cin).1.getLsbD 31 = cin ∧ (shiftImm .ror a v cin).2 = v.getLsbD 0) ∧
    (a ≠ 0#5 → (∀ i : Nat, i < 32 → (shiftImm .ror a v cin).1.getLsbD i = v.getLsbD ((i + a.toNat) % 32)) ∧
      (shiftImm .ror a v cin).2 = v.getLsbD (a.toNat - 1)) ∧
    (n.toNat % 32 ≠ 0 → (∀ i : Nat, i < 32 → (shiftReg .ror n v cin).1.getLsbD i = v.getLsbD ((i + n.toNat) % 32)) ∧
      (shiftReg .ror n v cin).2 = v.getLsbD (n.toNat % 32 - 1)) ∧
    (1 ≤ n.toNat → n.toNat % 32 = 0 → shiftReg .ror n v cin = (v, v.getLsbD 31)) ∧
    -- Reg 0
    (n = 0#8 → ∀ sh : ShiftType, shiftReg sh n v cin = (v, cin))

/-! Data processing. -/

/-- A data-processing instruction that writes a register, whatever its operand form and S bit, completes and gives Rd
the result the opcode table states; it writes no other register, no I, F, PC or mode, no memory and no other state, and
with S = 0 no flag (30_encoding.md R164; 40_data_processing.md R210, R211). Note: the result table is general knowledge
by the spec's mark, the R15 operands its decision D5. -/
def Obligations.DataProcessingResult : Prop :=
  ∀ (op : DpOp) (c : Cond) (sf : Bool) (rn rd : RegNum) (o : Op2) (s : State),
    s.passes c = true → ¬ IsTest op → rd ≠ 15#4 →
    ∃ t : State, exec (dpInstr op c sf rn rd o) s = .next t ∧
      t.reg rd = tableResult op (s.readBase rn) (op2Value o s).1 s.flagC ∧
      SlotsKept s t [slotOf s.mode rd] ∧ LowKept s t ∧ (sf = false → t.r15 = s.r15) ∧ RegsOnly s t

/-- The flags of a flag-setting arithmetic operation, in exact numbers (40_data_processing.md R206 to R208). Note: C as
no borrow in SUB, CMP, SBC, RSB and RSC is the spec's decision D20 and general knowledge by its mark, log entry 26. -/
def Obligations.ArithmeticFlags : Prop :=
  ∀ (op : DpOp) (c : Cond) (rn rd : RegNum) (o : Op2) (s : State),
    s.passes c = true → ¬ IsLogical op → rd ≠ 15#4 →
    ∃ t : State, exec (dpInstr op c true rn rd o) s = .next t ∧ LowKept s t ∧
      (let a := s.readBase rn
       let b := (op2Value o s).1
       (t.flagN = true ↔ (tableResult op a b s.flagC).toInt < 0) ∧
       (t.flagZ = true ↔ tableResult op a b s.flagC = 0#32) ∧
       (t.flagC = true ↔ exactCarry op a b s.flagC) ∧
       (t.flagV = true ↔ exactOverflow op a b s.flagC))

/-- The flags of a flag-setting logical operation (40_data_processing.md R209): N and Z from the result, C the shifter
carry, V unchanged. Note: the spec's decision D21. -/
def Obligations.LogicalFlags : Prop :=
  ∀ (op : DpOp) (c : Cond) (rn rd : RegNum) (o : Op2) (s : State),
    s.passes c = true → IsLogical op → rd ≠ 15#4 →
    ∃ t : State, exec (dpInstr op c true rn rd o) s = .next t ∧ LowKept s t ∧
      (let res := tableResult op (s.readBase rn) (op2Value o s).1 s.flagC
       FlagsAre t (res.getLsbD 31) (decide (res = 0#32)) (op2Value o s).2 s.flagV)

/-- A test operation writes no register and nothing but N, Z, C and V; with S = 0 it has no effect under the default of
`TEST_NOS` and no meaning under its alternative (40_data_processing.md R210, R215). Note: S = 0 is the spec's decision
D25; its alternative is log entry 20. -/
def Obligations.TestOperations : Prop :=
  ∀ (op : DpOp) (c : Cond) (rn rd : RegNum) (o : Op2) (s : State), s.passes c = true → IsTest op →
    (s.cfg.testNoS = .noEffect → exec (dpInstr op c false rn rd o) s = .next s) ∧
    (s.cfg.testNoS = .refuse → exec (dpInstr op c false rn rd o) s = .refused .testWithoutS) ∧
    (rd ≠ 15#4 → ∃ t : State, exec (dpInstr op c true rn rd o) s = .next t ∧ LowKept s t ∧ t = { s with r15 := t.r15 })

/-- Rd = 15 with S = 0 (40_data_processing.md R212): only the PC field changes. -/
def Obligations.ResultToPc : Prop :=
  ∀ (op : DpOp) (c : Cond) (rn : RegNum) (o : Op2) (s : State), s.passes c = true → ¬ IsTest op →
    ∃ t : State, exec (dpInstr op c false rn 15#4 o) s = .next t ∧
      t.r15.extractLsb' 2 24 = (tableResult op (s.readBase rn) (op2Value o s).1 s.flagC).extractLsb' 2 24 ∧
      PsrKept s t ∧ t = { s with r15 := t.r15 }

/-- Rd = 15 with S = 1 (40_data_processing.md R213): outside USR the whole word is written; in USR only the bits of
`USER_R15_WRITE_MASK`. Note: the USR mask is the spec's decision D26. -/
def Obligations.ResultToR15 : Prop :=
  ∀ (op : DpOp) (c : Cond) (rn : RegNum) (o : Op2) (s : State), s.passes c = true → ¬ IsTest op →
    ∃ t : State, exec (dpInstr op c true rn 15#4 o) s = .next t ∧ t = { s with r15 := t.r15 } ∧
      (let res := tableResult op (s.readBase rn) (op2Value o s).1 s.flagC
       (s.mode ≠ .usr → t.r15 = res) ∧
       (s.mode = .usr → ∀ j : Nat, j < 32 →
         t.r15.getLsbD j = if s.cfg.userR15WriteMask.getLsbD j then res.getLsbD j else s.r15.getLsbD j))

/-- The PSR-write form of the test operations (40_data_processing.md R214): N, Z, C, V in USR; N, Z, C, V, I, F, M in
the other modes; never the PC. Note: the spec's decision D24. -/
def Obligations.PsrWriteForm : Prop :=
  ∀ (op : DpOp) (c : Cond) (rn : RegNum) (o : Op2) (s : State), s.passes c = true → IsTest op →
    ∃ t : State, exec (dpInstr op c true rn 15#4 o) s = .next t ∧ t = { s with r15 := t.r15 } ∧
      (let res := tableResult op (s.readBase rn) (op2Value o s).1 s.flagC
       (s.mode = .usr → t.r15.extractLsb' 28 4 = res.extractLsb' 28 4 ∧ LowKept s t) ∧
       (s.mode ≠ .usr → t.r15.extractLsb' 26 6 = res.extractLsb' 26 6 ∧ t.r15.extractLsb' 0 2 = res.extractLsb' 0 2 ∧
         t.r15.extractLsb' 2 24 = s.r15.extractLsb' 2 24))

/-! Multiply. -/

/-- MUL and MLA (41_multiply.md R260 to R263): the low 32 bits of the product, plus Rn for MLA. With S = 1 N and Z
follow the result and V is kept; C is left open, so nothing is said of it. Note: general knowledge by the spec's mark; C
is open (D27) and a free value, log entry 8. -/
def Obligations.Multiply : Prop :=
  ∀ (acc : Bool) (c : Cond) (sf : Bool) (rd rn rs rm : RegNum) (s : State), s.passes c = true →
    rd ≠ 15#4 → rs ≠ 15#4 → rm ≠ 15#4 → (acc = true → rn ≠ 15#4) → rd ≠ rm →
    ∃ t : State, exec (mulInstr acc c sf rd rn rs rm) s = .next t ∧
      (t.reg rd).toNat =
        ((s.reg rm).toNat * (s.reg rs).toNat + (if acc then (s.reg rn).toNat else 0)) % 2 ^ 32 ∧
      SlotsKept s t [slotOf s.mode rd] ∧ LowKept s t ∧
      (sf = false → t.r15 = s.r15 ∧ RegsOnly s t) ∧
      (sf = true → t.flagN = (t.reg rd).getLsbD 31 ∧ t.flagZ = decide (t.reg rd = 0#32) ∧ t.flagV = s.flagV ∧
        t = { s with regs := t.regs, r15 := t.r15, draws := t.draws })

/-! The memory primitives. -/

/-- `MemRead` and `MemWrite` (20_memory.md R95, R96): a fault of the walk is an abort that changes nothing; RAM gives
the little-endian word or the zero-extended byte, or takes the bytes stored; a device page answers through `DevRead` or
`DevWrite`, whose failure is an abort; an access that did not abort marks a watched word. -/
def Obligations.MemoryAccess : Prop :=
  ∀ (byte : Bool) (a : Addr) (v : Word) (s : State), Memory.wf s.mem = true →
    (AccessFaults s false byte a → memRead (!byte) a s = .abort s) ∧
    (AccessFaults s true byte a → memWrite (!byte) a v s = .abort s) ∧
    (RamReadable s byte a → ∃ w : Word, w.toNat = ramNumber s.mem byte a.toNat ∧
      memRead (!byte) a s = .done w { s with watchHit := s.watchHit || maskBit s.wr a }) ∧
    (RamWritable s byte a → ∃ m : List Host.Cell, Stored s.mem m byte a.toNat v ∧
      memWrite (!byte) a v s = .done () { s with mem := m, watchHit := s.watchHit || maskBit s.ww a }) ∧
    (∀ dev : Nat, DeviceReadable s byte a dev →
      (∀ (w : Word) (t : State), devRead dev (!byte) a s = .done w t →
        memRead (!byte) a s = .done w { t with watchHit := t.watchHit || maskBit s.wr a }) ∧
      (∀ t : State, devRead dev (!byte) a s = .abort t → memRead (!byte) a s = .abort t)) ∧
    (∀ dev : Nat, DeviceWritable s byte a dev →
      (∀ (w : Word) (t : State), devWrite dev (!byte) a v s = .done w t →
        memWrite (!byte) a v s = .done () { t with watchHit := t.watchHit || maskBit s.ww a }) ∧
      (∀ t : State, devWrite dev (!byte) a v s = .abort t → memWrite (!byte) a v s = .abort t))

/-! Swap. -/

/-- SWP and SWPB on a RAM page (42_swap.md R281, R284, R285): Rd gets what memory held, memory gets what Rm held before
Rd was written, and nothing else changes but `watch_hit` of a watched word; on any page, Rd gets what the read gave when
neither access aborts. Note: the order of a swap is the spec's decision D47, the byte order its decision D1. -/
def Obligations.SwapExchanges : Prop :=
  ∀ (byte : Bool) (c : Cond) (rn rd rm : RegNum) (s : State), s.passes c = true →
    rn ≠ 15#4 → rd ≠ 15#4 → rm ≠ 15#4 → (s.reg rn).toNat < 2 ^ 26 →
    let a : Addr := (s.reg rn).setWidth 26
    (Memory.wf s.mem = true → RamReadable s byte a → RamWritable s byte a →
      ∃ t : State, exec (swapInstr byte c rn rd rm) s = .next t ∧
        (t.reg rd).toNat = ramNumber s.mem byte (s.reg rn).toNat ∧
        Stored s.mem t.mem byte (s.reg rn).toNat (s.reg rm) ∧
        SlotsKept s t [slotOf s.mode rd] ∧ t.r15 = s.r15 ∧ RegsMemWatch s t ∧
        t.watchHit = (s.watchHit || maskBit s.wr a || maskBit s.ww a)) ∧
    (∀ (old : Word) (u w : State), memRead (!byte) a s = .done old u →
      memWrite (!byte) a (if byte then (s.reg rm &&& 0xFF#32) else s.reg rm) u = .done () w →
      ∃ t : State, exec (swapInstr byte c rn rd rm) s = .next t ∧ t.reg rd = old ∧
        SlotsKept s t [slotOf s.mode rd] ∧ t = { w with regs := t.regs })

/-- A data abort of a swap (42_swap.md R283): a misaligned word, a read that faults, and a write that faults after a
read that did not; memory and Rd are unchanged. R15 as an operand is refused (42_swap.md R285). Note: the spec's
decisions D47 (effects), D5 (R15), D6 and D7 (entry). -/
def Obligations.SwapAborts : Prop :=
  ∀ (byte : Bool) (c : Cond) (rn rd rm : RegNum) (s : State), s.passes c = true →
    ((rn = 15#4 ∨ rd = 15#4 ∨ rm = 15#4) → exec (swapInstr byte c rn rd rm) s = .refused .swapR15) ∧
    (rn ≠ 15#4 → rd ≠ 15#4 → rm ≠ 15#4 → (s.reg rn).toNat < 2 ^ 26 →
      let a : Addr := (s.reg rn).setWidth 26
      (byte = false → a.toNat % 4 ≠ 0 →
        ∃ t : State, exec (swapInstr byte c rn rd rm) s = .next t ∧ Raised 0x10#26 s.instrAddr s t) ∧
      (AccessFaults s false byte a →
        ∃ t : State, exec (swapInstr byte c rn rd rm) s = .next t ∧ Raised 0x10#26 s.instrAddr s t) ∧
      (∀ (old : Word) (u w : State), memRead (!byte) a s = .done old u →
        memWrite (!byte) a (if byte then (s.reg rm &&& 0xFF#32) else s.reg rm) u = .abort w →
        ∃ t : State, exec (swapInstr byte c rn rd rm) s = .next t ∧
          Entered .svc 0x10#26 false s.instrAddr s t ∧ t.mem = s.mem))

/-! Single transfers. -/

/-- LDR and LDRB from a RAM page into a register, with either offset form, pre- or post-indexed, up or down, with or
without write-back (43_single_transfer.md R300, R301, R304, R310, R312): Rd gets the little-endian word or the
zero-extended byte, Rn the moved address if the form writes back, and nothing else changes but `watch_hit` of a watched
word. Note: the addressing is general knowledge by the spec's mark, the byte order its decision D1. -/
def Obligations.LoadFromRam : Prop :=
  ∀ (byte : Bool) (c : Cond) (pf uf wf : Bool) (rn rd : RegNum) (o : Offset) (s : State), s.passes c = true →
    SdtAllowed true pf wf rn rd o → rd ≠ 15#4 → (sdtAddr pf uf rn o s).toNat < 2 ^ 26 →
    RamReadable s byte ((sdtAddr pf uf rn o s).setWidth 26) →
    ∃ t : State, exec (sdtInstr true byte c pf uf wf rn rd o) s = .next t ∧
      (t.reg rd).toNat = ramNumber s.mem byte (sdtAddr pf uf rn o s).toNat ∧
      (WritesBack pf wf → t.reg rn = sdtMoved uf rn o s) ∧
      (WritesBack pf wf → SlotsKept s t [slotOf s.mode rd, slotOf s.mode rn]) ∧
      (¬ WritesBack pf wf → SlotsKept s t [slotOf s.mode rd]) ∧
      t.r15 = s.r15 ∧ t = { s with regs := t.regs, watchHit := t.watchHit } ∧
      t.watchHit = (s.watchHit || maskBit s.wr ((sdtAddr pf uf rn o s).setWidth 26))

/-- A load into R15 (43_single_transfer.md R305): only the PC field is written, with the word or byte RAM holds or a
device returned. Note: the spec's decision D28. -/
def Obligations.LoadIntoR15 : Prop :=
  ∀ (byte : Bool) (c : Cond) (pf uf wf : Bool) (rn : RegNum) (o : Offset) (s : State), s.passes c = true →
    SdtAllowed true pf wf rn 15#4 o → (sdtAddr pf uf rn o s).toNat < 2 ^ 26 →
    let a : Addr := (sdtAddr pf uf rn o s).setWidth 26
    (RamReadable s byte a →
      ∃ t : State, exec (sdtInstr true byte c pf uf wf rn 15#4 o) s = .next t ∧ PsrKept s t ∧
        t.pc.toNat = ramNumber s.mem byte (sdtAddr pf uf rn o s).toNat % 2 ^ 26 / 4 * 4 ∧
        (WritesBack pf wf → t.reg rn = sdtMoved uf rn o s ∧ SlotsKept s t [slotOf s.mode rn]) ∧
        (¬ WritesBack pf wf → t.regs = s.regs) ∧ t.watchHit = (s.watchHit || maskBit s.wr a) ∧
        t = { s with regs := t.regs, r15 := t.r15, watchHit := t.watchHit }) ∧
    (∀ (v : Word) (u : State), memRead (!byte) a s = .done v u →
      ∃ t : State, exec (sdtInstr true byte c pf uf wf rn 15#4 o) s = .next t ∧ PsrKept s t ∧
        t.pc.toNat = v.toNat % 2 ^ 26 / 4 * 4 ∧
        (WritesBack pf wf → t.reg rn = sdtMoved uf rn o s ∧ SlotsKept s t [slotOf s.mode rn]) ∧
        (¬ WritesBack pf wf → t.regs = s.regs) ∧ t = { u with regs := t.regs, r15 := t.r15 })

/-- STR and STRB to a RAM page (43_single_transfer.md R304, R306, R311, R313): the bytes of Rd before any write-back, or
of `Full(A + 8)` for R15, are stored at the access address, and no other byte, register or flag changes but the base of
a form that writes back. Note: the addressing is general knowledge by the spec's mark, R15 as a source its decision D5,
the byte order its decision D1. -/
def Obligations.StoreToRam : Prop :=
  ∀ (byte : Bool) (c : Cond) (pf uf wf : Bool) (rn rd : RegNum) (o : Offset) (s : State), s.passes c = true →
    SdtAllowed false pf wf rn rd o → Memory.wf s.mem = true → (sdtAddr pf uf rn o s).toNat < 2 ^ 26 →
    RamWritable s byte ((sdtAddr pf uf rn o s).setWidth 26) →
    ∃ t : State, exec (sdtInstr false byte c pf uf wf rn rd o) s = .next t ∧
      Stored s.mem t.mem byte (sdtAddr pf uf rn o s).toNat (s.readFull rd) ∧
      (WritesBack pf wf → t.reg rn = sdtMoved uf rn o s ∧ SlotsKept s t [slotOf s.mode rn]) ∧
      (¬ WritesBack pf wf → t.regs = s.regs) ∧
      t.r15 = s.r15 ∧ RegsMemWatch s t ∧
      t.watchHit = (s.watchHit || maskBit s.ww ((sdtAddr pf uf rn o s).setWidth 26))

/-- The address-bus check of single transfers and swaps (43_single_transfer.md R302; 42_swap.md R282; 60_exceptions.md
R506): an access address above the 26-bit space is an address exception, with no access, no register written and no
write-back; the link is A plus its entry of `LINK_VALUE`, by default A. Note: the place of the check is the spec's
decision D48, the entry its decisions D6 and D7; another LINK_VALUE is log entry 20. -/
def Obligations.AddressExceptions : Prop :=
  (∀ (load byte : Bool) (c : Cond) (pf uf wf : Bool) (rn rd : RegNum) (o : Offset) (s : State), s.passes c = true →
    SdtAllowed load pf wf rn rd o → 2 ^ 26 ≤ (sdtAddr pf uf rn o s).toNat →
    ∃ t : State, exec (sdtInstr load byte c pf uf wf rn rd o) s = .next t ∧
      Raised 0x14#26 (s.instrAddr + s.cfg.linkValue.addressException) s t) ∧
  (∀ (byte : Bool) (c : Cond) (rn rd rm : RegNum) (s : State), s.passes c = true →
    rn ≠ 15#4 → rd ≠ 15#4 → rm ≠ 15#4 → 2 ^ 26 ≤ (s.reg rn).toNat →
    ∃ t : State, exec (swapInstr byte c rn rd rm) s = .next t ∧
      Raised 0x14#26 (s.instrAddr + s.cfg.linkValue.addressException) s t)

/-- A data abort of a single transfer (43_single_transfer.md R303): a misaligned word, an absent page, or a right
missing in a checked mode; under the default of `SDT_ABORT_WRITEBACK` no register is written, nothing is written back
and no memory changes. Note: the spec's decision D14, with D8 for the checked modes and D6 and D7 for the entry. -/
def Obligations.TransferAborts : Prop :=
  ∀ (load byte : Bool) (c : Cond) (pf uf wf : Bool) (rn rd : RegNum) (o : Offset) (s : State), s.passes c = true →
    SdtAllowed load pf wf rn rd o → s.cfg.sdtAbortWriteback = false → (sdtAddr pf uf rn o s).toNat < 2 ^ 26 →
    AccessFaults s (!load) byte ((sdtAddr pf uf rn o s).setWidth 26) →
    ∃ t : State, exec (sdtInstr load byte c pf uf wf rn rd o) s = .next t ∧ Raised 0x10#26 s.instrAddr s t

/-- LDR and LDRB from a device page (20_memory.md R97): the callback of the access width is called with the in-page
offset and Rd gets what it returns, a byte zero-extended, and the word is marked if it is watched; a missing callback or
a failing device is a data abort under the default of `DEV_FAIL` and has no meaning under its alternative; a callback
that re-enters the core is refused (70_reset_and_hazards.md R613). The device's answer is the head of the model's input
`deviceReplies` (log entry 9). Note: the spec's decisions D46 and D49; the alternative of DEV_FAIL is log entry 20; the
device's answer is the model's input, log entry 9. -/
def Obligations.DeviceLoad : Prop :=
  ∀ (byte : Bool) (c : Cond) (pf uf wf : Bool) (rn rd : RegNum) (o : Offset) (s : State) (dev : Nat) (d : Device),
    s.passes c = true → SdtAllowed true pf wf rn rd o → rd ≠ 15#4 → (sdtAddr pf uf rn o s).toNat < 2 ^ 26 →
    DeviceReadable s byte ((sdtAddr pf uf rn o s).setWidth 26) dev → s.devices[dev]? = some d →
    let has := if byte then d.readByte else d.readWord
    let off := ((sdtAddr pf uf rn o s) &&& 0xFFF#32).setWidth 12
    (∀ (r : DeviceReply) (rest : List DeviceReply), s.deviceReplies = r :: rest → r.reenters = false →
      has = true →
      (r.fails = false → ∃ t : State, exec (sdtInstr true byte c pf uf wf rn rd o) s = .next t ∧
        t.reg rd = (if byte then r.value &&& 0xFF#32 else r.value) ∧
        t.deviceCalls = (if byte then .readByte dev off else .readWord dev off) :: s.deviceCalls ∧
        t.deviceReplies = rest ∧
        (WritesBack pf wf → t.reg rn = sdtMoved uf rn o s ∧ SlotsKept s t [slotOf s.mode rd, slotOf s.mode rn]) ∧
        (¬ WritesBack pf wf → SlotsKept s t [slotOf s.mode rd]) ∧
        t = { s with
          regs := t.regs, watchHit := t.watchHit, deviceCalls := t.deviceCalls, deviceReplies := t.deviceReplies,
          pinIrq := t.pinIrq, pinFiq := t.pinFiq, lastInterrupt := t.lastInterrupt } ∧
        t.watchHit = (s.watchHit || maskBit s.wr ((sdtAddr pf uf rn o s).setWidth 26)) ∧
        (r.interrupt = none → t.pinIrq = s.pinIrq ∧ t.pinFiq = s.pinFiq ∧ t.lastInterrupt = s.lastInterrupt)) ∧
      (r.fails = true → s.cfg.devFail = .abort → s.cfg.sdtAbortWriteback = false →
        ∃ t : State, exec (sdtInstr true byte c pf uf wf rn rd o) s = .next t ∧
          Entered .svc 0x10#26 false s.instrAddr s t ∧ t.mem = s.mem) ∧
      (r.fails = true → s.cfg.devFail = .refuse →
        exec (sdtInstr true byte c pf uf wf rn rd o) s = .refused .deviceFailure)) ∧
    (∀ (r : DeviceReply) (rest : List DeviceReply), s.deviceReplies = r :: rest → r.reenters = true → has = true →
      exec (sdtInstr true byte c pf uf wf rn rd o) s = .refused .deviceReenters) ∧
    (has = false → s.cfg.devFail = .refuse →
      exec (sdtInstr true byte c pf uf wf rn rd o) s = .refused .deviceFailure) ∧
    (has = false → s.cfg.devFail = .abort → s.cfg.sdtAbortWriteback = false →
      ∃ t : State, exec (sdtInstr true byte c pf uf wf rn rd o) s = .next t ∧ Raised 0x10#26 s.instrAddr s t)

/-- STR and STRB to a device page (20_memory.md R98): the callback of the access width is called with the in-page offset
and the word or the low byte, no RAM changes, and the word is marked if it is watched. A missing `write_word` or a
failing device is a data abort under the default of `DEV_FAIL` and has no meaning under its alternative; a byte store
without `write_byte`, and a callback that re-enters the core (70_reset_and_hazards.md R613), are refused. The device's
answer is the head of the model's input `deviceReplies` (log entry 9). Note: the spec's decisions D46, D49 and D64; the
alternative of DEV_FAIL is log entry 20; the device's answer is the model's input, log entry 9. -/
def Obligations.DeviceStore : Prop :=
  ∀ (byte : Bool) (c : Cond) (pf uf wf : Bool) (rn rd : RegNum) (o : Offset) (s : State) (dev : Nat) (d : Device),
    s.passes c = true → SdtAllowed false pf wf rn rd o → (sdtAddr pf uf rn o s).toNat < 2 ^ 26 →
    DeviceWritable s byte ((sdtAddr pf uf rn o s).setWidth 26) dev → s.devices[dev]? = some d →
    let has := if byte then d.writeByte else d.writeWord
    let off := ((sdtAddr pf uf rn o s) &&& 0xFFF#32).setWidth 12
    (∀ (r : DeviceReply) (rest : List DeviceReply), s.deviceReplies = r :: rest → r.reenters = false →
      r.fails = false → has = true →
      ∃ t : State, exec (sdtInstr false byte c pf uf wf rn rd o) s = .next t ∧
        t.deviceCalls = (if byte then .writeByte dev off ((s.readFull rd).setWidth 8)
          else .writeWord dev off (s.readFull rd)) :: s.deviceCalls ∧
        t.deviceReplies = rest ∧
        (WritesBack pf wf → t.reg rn = sdtMoved uf rn o s ∧ SlotsKept s t [slotOf s.mode rn]) ∧
        (¬ WritesBack pf wf → t.regs = s.regs) ∧
        t = { s with
          regs := t.regs, watchHit := t.watchHit, deviceCalls := t.deviceCalls, deviceReplies := t.deviceReplies,
          pinIrq := t.pinIrq, pinFiq := t.pinFiq, lastInterrupt := t.lastInterrupt } ∧
        t.watchHit = (s.watchHit || maskBit s.ww ((sdtAddr pf uf rn o s).setWidth 26)) ∧
        (r.interrupt = none → t.pinIrq = s.pinIrq ∧ t.pinFiq = s.pinFiq ∧ t.lastInterrupt = s.lastInterrupt)) ∧
    (∀ (r : DeviceReply) (rest : List DeviceReply), s.deviceReplies = r :: rest → r.reenters = false →
      r.fails = true → has = true → s.cfg.devFail = .refuse →
      exec (sdtInstr false byte c pf uf wf rn rd o) s = .refused .deviceFailure) ∧
    (∀ (r : DeviceReply) (rest : List DeviceReply), s.deviceReplies = r :: rest → r.reenters = false →
      r.fails = true → has = true → s.cfg.devFail = .abort → s.cfg.sdtAbortWriteback = false →
      ∃ t : State, exec (sdtInstr false byte c pf uf wf rn rd o) s = .next t ∧
        Entered .svc 0x10#26 false s.instrAddr s t ∧ t.mem = s.mem) ∧
    (∀ (r : DeviceReply) (rest : List DeviceReply), s.deviceReplies = r :: rest → r.reenters = true → has = true →
      exec (sdtInstr false byte c pf uf wf rn rd o) s = .refused .deviceReenters) ∧
    (byte = true → has = false →
      exec (sdtInstr false byte c pf uf wf rn rd o) s = .refused .deviceByteStore) ∧
    (byte = false → has = false → s.cfg.devFail = .refuse →
      exec (sdtInstr false byte c pf uf wf rn rd o) s = .refused .deviceFailure) ∧
    (byte = false → has = false → s.cfg.devFail = .abort → s.cfg.sdtAbortWriteback = false →
      ∃ t : State, exec (sdtInstr false byte c pf uf wf rn rd o) s = .next t ∧ Raised 0x10#26 s.instrAddr s t)

/-! Block transfers. -/

/-- The addressing modes (44_block_transfer.md R340), for a list of `n` registers. Note: general knowledge by the spec's
mark. -/
def Obligations.BlockAddressing : Prop :=
  ∀ (base : Word) (reglist : BitVec 16),
    let n := rankOf reglist 16
    blockStart false true base reglist = base ∧
    blockStart true true base reglist = base + 4#32 ∧
    blockStart false false base reglist = base - BitVec.ofNat 32 (4 * n) + 4#32 ∧
    blockStart true false base reglist = base - BitVec.ofNat 32 (4 * n) ∧
    blockWriteback true base reglist = base + BitVec.ofNat 32 (4 * n) ∧
    blockWriteback false base reglist = base - BitVec.ofNat 32 (4 * n)

/-- STM (44_block_transfer.md R342 to R344, R346, R348, R349). To RAM, every listed register is stored at its address
modulo 2^26, the base as it was if it is the first register stored and as written back if it is a later one, R15 as
`Full(A + 8)`, the user bank with S = 1; a watched word stored is marked (20_memory.md R100); every other byte and
register is unchanged but the base of a form that writes back. On whatever pages, when no write aborts, the state is the
one the writes leave one after the other, with that base. Note: the spec's decisions D5, D12, D29 and D60. -/
def Obligations.StoreMultiple : Prop :=
  ∀ (c : Cond) (pf uf sf wf : Bool) (rn : RegNum) (reglist : BitVec 16) (s : State), s.passes c = true →
    BdtAllowed false sf wf rn reglist →
    (Memory.wf s.mem = true →
      (∀ i : Nat, i < 16 → reglist.getLsbD i = true → RamWritable s false (blockAddr pf uf rn reglist i s)) →
      ∃ t : State, exec (.stm c pf uf sf wf rn reglist) s = .next t ∧
        (∀ i : RegNum, reglist.getLsbD i.toNat = true →
          memWord t.mem (blockAddr pf uf rn reglist i.toNat s).toNat = stmStored uf sf wf rn reglist i s) ∧
        (∀ b : Nat, (∀ i : Nat, i < 16 → reglist.getLsbD i = true →
            ¬ ((blockAddr pf uf rn reglist i s).toNat ≤ b ∧ b < (blockAddr pf uf rn reglist i s).toNat + 4)) →
          memByte t.mem b = memByte s.mem b) ∧
        (wf = true → t.reg rn = blockNewBase uf rn reglist s ∧ SlotsKept s t [slotOf s.mode rn]) ∧
        (wf = false → t.regs = s.regs) ∧ t.r15 = s.r15 ∧ RegsMemWatch s t ∧
        t.watchHit = (s.watchHit || blockMarked s.ww pf uf rn reglist s)) ∧
    (∀ v : Nat → State, WritesBelow 16 pf uf sf wf rn reglist s v →
      ∃ t : State, exec (.stm c pf uf sf wf rn reglist) s = .next t ∧
        (wf = true → t.reg rn = blockNewBase uf rn reglist s ∧ SlotsKept s t [slotOf s.mode rn]) ∧
        (wf = false → t.regs = s.regs) ∧ t = { v 16 with regs := t.regs })

/-- LDM (44_block_transfer.md R342 to R344, R346, R348, R349). From RAM, every listed register gets the word at its
address modulo 2^26, in the current bank or, with S = 1 and R15 not listed, in the user bank; R15 by the S bit; a
watched word read is marked (20_memory.md R100); the base is written back unless it is loaded; every other register is
unchanged and so is all of memory. On whatever pages, when no read aborts, every listed register gets what its read
gave. Note: the spec's decisions D12, D26, D29 and D60. -/
def Obligations.LoadMultiple : Prop :=
  ∀ (c : Cond) (pf uf sf wf : Bool) (rn : RegNum) (reglist : BitVec 16) (s : State), s.passes c = true →
    BdtAllowed true sf wf rn reglist →
    let word := fun i : Nat => memWord s.mem (blockAddr pf uf rn reglist i s).toNat
    ((∀ i : Nat, i < 16 → reglist.getLsbD i = true → RamReadable s false (blockAddr pf uf rn reglist i s)) →
      ∃ t : State, exec (.ldm c pf uf sf wf rn reglist) s = .next t ∧
        LdmSlots uf sf wf rn reglist s t (fun _ => true) word ∧ LdmR15 sf reglist s t (word 15) ∧
        t.watchHit = (s.watchHit || blockMarked s.wr pf uf rn reglist s) ∧
        t = { s with regs := t.regs, r15 := t.r15, watchHit := t.watchHit }) ∧
    (∀ (v : Nat → State) (out : Nat → Word), Reads pf uf rn reglist s v (fun _ => true) out →
      ∃ t : State, exec (.ldm c pf uf sf wf rn reglist) s = .next t ∧
        LdmSlots uf sf wf rn reglist s t (fun _ => true) out ∧ LdmR15 sf reglist s t (out 15) ∧
        t = { v 16 with regs := t.regs, r15 := t.r15 })

/-- A data abort of STM (44_block_transfer.md R348). On RAM and absent pages, the registers below the first that faults
are stored, no later one is, the write-back stays, and one DataAbort with the link A is raised. On whatever pages, a
device that fails among them, the state is the one the accesses up to the first that aborts leave one after the other.
Note: the spec's decisions D12, D14, D29 and D60, with D6 for the link. -/
def Obligations.StoreMultipleAborts : Prop :=
  ∀ (c : Cond) (pf uf sf wf : Bool) (rn : RegNum) (reglist : BitVec 16) (s : State) (j : Nat), s.passes c = true →
    BdtAllowed false sf wf rn reglist → j < 16 → reglist.getLsbD j = true →
    (Memory.wf s.mem = true → AccessFaults s true false (blockAddr pf uf rn reglist j s) →
      (∀ i : Nat, i < j → reglist.getLsbD i = true → RamWritable s false (blockAddr pf uf rn reglist i s)) →
      ∃ u : State, exec (.stm c pf uf sf wf rn reglist) s = .next (raise .dataAbort s.instrAddr u) ∧
        (∀ i : RegNum, i.toNat < j → reglist.getLsbD i.toNat = true →
          memWord u.mem (blockAddr pf uf rn reglist i.toNat s).toNat = stmStored uf sf wf rn reglist i s) ∧
        (∀ b : Nat, (∀ i : Nat, i < j → reglist.getLsbD i = true →
            ¬ ((blockAddr pf uf rn reglist i s).toNat ≤ b ∧ b < (blockAddr pf uf rn reglist i s).toNat + 4)) →
          memByte u.mem b = memByte s.mem b) ∧
        (wf = true → u.reg rn = blockNewBase uf rn reglist s ∧ SlotsKept s u [slotOf s.mode rn]) ∧
        (wf = false → u.regs = s.regs) ∧ u.r15 = s.r15 ∧ RegsMemWatch s u) ∧
    (∀ (v : Nat → State) (w : State), WritesBelow j pf uf sf wf rn reglist s v →
      memWrite true (blockAddr pf uf rn reglist j s) (stmStored uf sf wf rn reglist (BitVec.ofNat 4 j) s) (v j) =
        .abort w →
      ∃ u : State, exec (.stm c pf uf sf wf rn reglist) s = .next (raise .dataAbort s.instrAddr u) ∧
        (wf = true → u.reg rn = blockNewBase uf rn reglist s ∧ SlotsKept s u [slotOf s.mode rn]) ∧
        (wf = false → u.regs = s.regs) ∧ u = { w with regs := u.regs })

/-- A data abort of LDM under the default of `LDM_AFTER_ABORT` (44_block_transfer.md R348). On RAM and absent pages, the
registers whose access does not fault are loaded, before and after the fault, the others are not; R15 is not loaded if
an access has faulted, its own or an earlier one; the write-back stays, and one DataAbort with the link A is raised. On
whatever pages, a device that fails among them, exactly the registers whose read does not abort get what it gave. Note:
the spec's decisions D12, D13, D14, D29, D60 and D61, with D6 for the link. -/
def Obligations.LoadMultipleAborts : Prop :=
  ∀ (c : Cond) (pf uf sf wf : Bool) (rn : RegNum) (reglist : BitVec 16) (s : State) (j : Nat), s.passes c = true →
    BdtAllowed true sf wf rn reglist → s.cfg.ldmContinuesAfterAbort = true → j < 16 → reglist.getLsbD j = true →
    let word := fun i : Nat => memWord s.mem (blockAddr pf uf rn reglist i s).toNat
    (∀ ok : Nat → Bool, ok j = false →
      (∀ i : Nat, i < 16 → reglist.getLsbD i = true →
        if ok i then RamReadable s false (blockAddr pf uf rn reglist i s)
        else AccessFaults s false false (blockAddr pf uf rn reglist i s)) →
      ∃ u : State, exec (.ldm c pf uf sf wf rn reglist) s = .next (raise .dataAbort s.instrAddr u) ∧
        LdmSlots uf sf wf rn reglist s u ok word ∧ u = { s with regs := u.regs, watchHit := u.watchHit }) ∧
    (∀ (v : Nat → State) (ok : Nat → Bool) (out : Nat → Word), ok j = false →
      Reads pf uf rn reglist s v ok out →
      ∃ u : State, exec (.ldm c pf uf sf wf rn reglist) s = .next (raise .dataAbort s.instrAddr u) ∧
        LdmSlots uf sf wf rn reglist s u ok out ∧ u = { v 16 with regs := u.regs })

/-- A block transfer whose base is no multiple of 4 aborts and transfers nothing (44_block_transfer.md R345); its
write-back stays (R348). Note: the spec's decisions D31 and D14, with D6 for the link. -/
def Obligations.BlockMisaligned : Prop :=
  ∀ (load : Bool) (c : Cond) (pf uf sf wf : Bool) (rn : RegNum) (reglist : BitVec 16) (s : State), s.passes c = true →
    BdtAllowed load sf wf rn reglist → (s.readBase rn).toNat % 4 ≠ 0 →
    ∃ u : State, exec (bdtInstr load c pf uf sf wf rn reglist) s = .next (raise .dataAbort s.instrAddr u) ∧
      (wf = true → u.reg rn = blockNewBase uf rn reglist s ∧ SlotsKept s u [slotOf s.mode rn]) ∧
      (wf = false → u.regs = s.regs) ∧ u = { s with regs := u.regs }

/-! The combinations the spec refuses. -/

/-- The operand combinations to which the spec gives no meaning: of a multiply (41_multiply.md R264), a single transfer
(43_single_transfer.md R301, R307) and a block transfer (44_block_transfer.md R347). Each stops, under its own name.
Under the alternative of `T_FORMS` (log entry 20) a T form runs instead: as the plain post-indexed form where USR may
make its access, and otherwise as a data abort. Note: the spec's decisions D57, D15, D58, D30 and D61; the names are log
entry 14, the alternative of T_FORMS log entry 20. -/
def Obligations.OperandRestrictions : Prop :=
  ∀ (c : Cond) (s : State), s.passes c = true →
    (∀ (acc sf : Bool) (rd rn rs rm : RegNum),
      (rd = rm ∨ rd = 15#4 ∨ rm = 15#4 ∨ rs = 15#4 ∨ (acc = true ∧ rn = 15#4)) →
      exec (mulInstr acc c sf rd rn rs rm) s = .refused .multiplyRdEqRm ∨
      exec (mulInstr acc c sf rd rn rs rm) s = .refused .multiplyR15) ∧
    (∀ (load byte pf uf wf : Bool) (rn rd : RegNum) (o : Offset), ¬ SdtAllowed load pf wf rn rd o →
      (s.cfg.tForms = .refuse ∨ ¬ SdtAllowed load pf (pf && wf) rn rd o) →
      ∃ r : Refusal, exec (sdtInstr load byte c pf uf wf rn rd o) s = .refused r ∧
        (r = .transferTForm ∨ r = .transferWritebackR15 ∨ r = .loadWritebackRnEqRd ∨ r = .transferOffsetR15)) ∧
    (∀ (load byte uf : Bool) (rn rd : RegNum) (o : Offset),
      s.cfg.tForms = .userAccess → SdtAllowed load false false rn rd o →
      let right := fun p : Page => if load then p.perm.r else p.perm.w
      let page := pageAt s.pages ((s.readBase rn).toNat / 4096)
      (s.mode = .usr ∨ (∀ p : Page, page = some p → right p = true) →
        exec (sdtInstr load byte c false uf true rn rd o) s = exec (sdtInstr load byte c false uf false rn rd o) s) ∧
      (∀ p : Page, page = some p → right p = false → .usr ∈ s.cfg.permCheckModes → s.cfg.sdtAbortWriteback = false →
        (s.readBase rn).toNat < 2 ^ 26 →
        ∃ t : State, exec (sdtInstr load byte c false uf true rn rd o) s = .next t ∧ Raised 0x10#26 s.instrAddr s t)) ∧
    (∀ (load pf uf sf wf : Bool) (rn : RegNum) (reglist : BitVec 16),
      (reglist = 0#16 → exec (bdtInstr load c pf uf sf wf rn reglist) s = .refused .blockEmptyList) ∧
      (reglist ≠ 0#16 → wf = true → rn = 15#4 →
        exec (bdtInstr load c pf uf sf wf rn reglist) s = .refused .blockWritebackR15) ∧
      (reglist ≠ 0#16 → wf = true → rn ≠ 15#4 → sf = true → ¬ (load = true ∧ reglist.getLsbD 15 = true) →
        exec (bdtInstr load c pf uf sf wf rn reglist) s = .refused .blockWritebackUserBank))

/-! Branches. -/

/-- B (45_branch.md R380, R382): the target is A + 8 plus four times the signed offset, modulo 2^26; N, Z, C, V, I, F
and M are kept and nothing else changes. Note: the wrap-around is the spec's decision D4. -/
def Obligations.Branch : Prop :=
  ∀ (c : Cond) (offset24 : BitVec 24) (s : State), s.passes c = true →
    ∃ t : State, exec (.b c offset24) s = .next t ∧
      (t.pc.toNat : Int) = ((s.instrAddr.toNat : Int) + 8 + 4 * offset24.toInt) % 2 ^ 26 ∧
      PsrKept s t ∧ t = { s with r15 := t.r15 }

/-- BL (45_branch.md R383): as B, and R14 of the mode gets the R15 word of A + 4. Note: the wrap-around is the spec's
decision D4, the link its decision D32. -/
def Obligations.BranchWithLink : Prop :=
  ∀ (c : Cond) (offset24 : BitVec 24) (s : State), s.passes c = true →
    ∃ t : State, exec (.bl c offset24) s = .next t ∧
      (t.pc.toNat : Int) = ((s.instrAddr.toNat : Int) + 8 + 4 * offset24.toInt) % 2 ^ 26 ∧ PsrKept s t ∧
      (t.reg 14#4).extractLsb' 26 6 = s.r15.extractLsb' 26 6 ∧
      (t.reg 14#4).extractLsb' 2 24 = (s.instrAddr + 4#26).extractLsb' 2 24 ∧
      (t.reg 14#4).extractLsb' 0 2 = s.r15.extractLsb' 0 2 ∧
      SlotsKept s t [slotOf s.mode 14#4] ∧ RegsOnly s t

/-! Software interrupt, breakpoint, undefined instruction. -/

/-- SWI (46_swi_coprocessor.md R400): SVC mode, vector 0x08, I set, the link the R15 word of A plus its entry of
`LINK_VALUE`, by default 4, in every mode and for every immediate. Note: the spec's decisions D6 and D7; another
LINK_VALUE is log entry 20. -/
def Obligations.SoftwareInterrupt : Prop :=
  ∀ (c : Cond) (imm24 : BitVec 24) (s : State), s.passes c = true →
    ∃ t : State, exec (.swi c imm24) s = .next t ∧
      Raised 0x08#26 (s.instrAddr + s.cfg.linkValue.softwareInterrupt) s t

/-- The unallocated words under `UNDEF_OUTCOME` and the LDC/STC words under `CDT_OUTCOME` (30_encoding.md R170;
46_swi_coprocessor.md R414; 60_exceptions.md R503): by default an undefined-instruction exception, by the alternative
the host status unknown-opcode (log entry 20), and in both no memory access. Note: the spec's decisions D16 and D17,
with D6 and D7 for the entry; what the alternatives leave is log entry 20. -/
def Obligations.UndefinedInstructions : Prop :=
  ∀ s : State,
    (∀ w : Word, s.passes (Cond.ofBits (w.extractLsb' 28 4)) = true →
      ((w.extractLsb' 25 3 = 0b000#3 ∧ w.getLsbD 7 = true ∧ w.getLsbD 4 = true ∧
          ¬ (w.extractLsb' 22 6 = 0#6 ∧ w.extractLsb' 4 4 = 0b1001#4) ∧
          ¬ (w.extractLsb' 23 5 = 0b00010#5 ∧ w.extractLsb' 20 2 = 0#2 ∧ w.extractLsb' 4 8 = 0b00001001#8)) ∨
        (w.extractLsb' 25 3 = 0b011#3 ∧ w.getLsbD 4 = true) →
        UndefinedBy s.cfg.undefOutcome (decode s.cfg w) s) ∧
      (w.extractLsb' 25 3 = 0b110#3 → UndefinedBy s.cfg.cdtOutcome (decode s.cfg w) s)) ∧
    (∀ (c : Cond) (bits : BitVec 28), s.passes c = true →
      UndefinedBy s.cfg.undefOutcome (.undefDp c bits) s ∧ UndefinedBy s.cfg.undefOutcome (.undefSdt c bits) s) ∧
    (∀ (c : Cond) (pf uf nf wf : Bool) (rn : RegNum) (crd : CrNum) (cp : BitVec 4) (offset8 : BitVec 8),
      s.passes c = true →
      UndefinedBy s.cfg.cdtOutcome (.ldc c pf uf nf wf rn crd cp offset8) s ∧
      UndefinedBy s.cfg.cdtOutcome (.stc c pf uf nf wf rn crd cp offset8) s)

/-- The breakpoint SWI (46_swi_coprocessor.md R401; 60_exceptions.md R542): in a bounded run the call ends with
breakpoint-hit and the PC field back at A; in an unbounded run an ordinary software interrupt is taken. Note: the spec's
decisions D40 and D41; the end of the call is `status`, log entry 7, the link of the unbounded case log entry 20. -/
def Obligations.BreakpointInstruction : Prop :=
  ∀ (c : Cond) (imm24 : BitVec 24) (s : State), s.passes c = true →
    (s.bounded = true → ∃ t : State, exec (.bkpt c imm24) s = .next t ∧ t.pc = s.instrAddr ∧ PsrKept s t ∧
      t = { s with r15 := t.r15, watchHit := false, status := .breakpointHit }) ∧
    (s.bounded = false → ∃ t : State, exec (.bkpt c imm24) s = .next t ∧
      Raised 0x08#26 (s.instrAddr + s.cfg.linkValue.softwareInterrupt) s t)

/-! Coprocessors. -/

/-- MCR (46_swi_coprocessor.md R411): the register CRn of a recognised coprocessor gets Rd, or `Full(A + 8)` for R15; an
unrecognised coprocessor changes nothing. Note: the spec's decisions D36, D37 and D5. -/
def Obligations.CoprocRegisterWrite : Prop :=
  ∀ (c : Cond) (op1 : BitVec 3) (crn : CrNum) (rd : RegNum) (cp : BitVec 4) (op2 : BitVec 3) (crm : CrNum) (s : State),
    s.passes c = true → s.cfg.Wf →
    (∀ k : Coproc, cp = cpNumber s.cfg k →
      ∃ t : State, exec (.mcr c op1 crn rd cp op2 crm) s = .next t ∧ t.cr k crn = s.readFull rd ∧
        (∀ (j : Coproc) (n : CrNum), ¬ (j = k ∧ n = crn) → t.cr j n = s.cr j n) ∧
        t = { s with crHwmgr := t.crHwmgr, crMmu := t.crMmu, crIntctl := t.crIntctl }) ∧
    ((∀ k : Coproc, cp ≠ cpNumber s.cfg k) → exec (.mcr c op1 crn rd cp op2 crm) s = .next s)

/-- MRC (46_swi_coprocessor.md R412): Rd gets the register CRn of a recognised coprocessor; R15 as Rd is refused; an
unrecognised coprocessor changes nothing, also with R15 as Rd: that R410 comes before the refusal is the model's choice
(DEDUCED, log entry 27). Note: the spec's decisions D36 and D37; that an unrecognised coprocessor comes before the
refusal of R15 is the model's choice, DEDUCED, log entry 27. -/
def Obligations.CoprocRegisterRead : Prop :=
  ∀ (c : Cond) (op1 : BitVec 3) (crn : CrNum) (rd : RegNum) (cp : BitVec 4) (op2 : BitVec 3) (crm : CrNum) (s : State),
    s.passes c = true → s.cfg.Wf →
    (∀ k : Coproc, cp = cpNumber s.cfg k → rd ≠ 15#4 →
      ∃ t : State, exec (.mrc c op1 crn rd cp op2 crm) s = .next t ∧ t.reg rd = s.cr k crn ∧
        SlotsKept s t [slotOf s.mode rd] ∧ t = { s with regs := t.regs }) ∧
    (∀ k : Coproc, cp = cpNumber s.cfg k → rd = 15#4 →
      exec (.mrc c op1 crn rd cp op2 crm) s = .refused .mrcR15) ∧
    ((∀ k : Coproc, cp ≠ cpNumber s.cfg k) → exec (.mrc c op1 crn rd cp op2 crm) s = .next s)

/-- The hardware manager's queries (46_swi_coprocessor.md R420, R421, R423, R424, R426): device count, device id, last
interrupt, pseudo-clock; an op1 that names none of the seven operations has no effect. With CRd = CRn the last-interrupt
query leaves the code there: the order of its two writes is the model's choice (DEDUCED, log entry 27). Note: the spec's
decisions D37 and D45; the order of the two writes of the last-interrupt query is the model's choice, DEDUCED, log entry
27. -/
def Obligations.HardwareQueries : Prop :=
  ∀ (c : Cond) (crn crd : CrNum) (op2 : BitVec 3) (crm : CrNum) (s : State), s.passes c = true → s.cfg.Wf →
    (∃ t : State, exec (hwCdp s.cfg c s.cfg.opNumDevices crn crd op2 crm) s = .next t ∧
      HwResult crd (BitVec.ofNat 32 s.devices.length) s t) ∧
    (∃ t : State, exec (hwCdp s.cfg c s.cfg.opDeviceId crn crd op2 crm) s = .next t ∧
      (∀ d : Device, s.devices[(s.cr .hwmgr crn).toNat]? = some d → HwResult crd d.id s t) ∧
      (s.devices.length ≤ (s.cr .hwmgr crn).toNat → HwResult crd 0xFFFFFFFF#32 s t)) ∧
    (∃ t : State, exec (hwCdp s.cfg c s.cfg.opLastInterrupt crn crd op2 crm) s = .next t ∧
      (crd ≠ crn → t.cr .hwmgr crd = s.lastInterrupt.deviceId) ∧ t.cr .hwmgr crn = s.lastInterrupt.code ∧
      (∀ n : CrNum, n ≠ crd → n ≠ crn → t.cr .hwmgr n = s.cr .hwmgr n) ∧ t = { s with crHwmgr := t.crHwmgr }) ∧
    (∃ t : State, exec (hwCdp s.cfg c s.cfg.opClock crn crd op2 crm) s = .next t ∧
      HwResult crd s.cfg.clockValue s t) ∧
    (∀ op1 : BitVec 4, op1 ∉ s.cfg.hwmgrOps → exec (hwCdp s.cfg c op1 crn crd op2 crm) s = .next s)

/-- Wait for interrupt (46_swi_coprocessor.md R425): the wait is armed exactly when both masks are clear. Note: the
spec's decisions D37 and D52. -/
def Obligations.WaitForInterrupt : Prop :=
  ∀ (c : Cond) (crn crd : CrNum) (op2 : BitVec 3) (crm : CrNum) (s : State), s.passes c = true → s.cfg.Wf →
    (s.flagI = false → s.flagF = false →
      exec (hwCdp s.cfg c s.cfg.opWait crn crd op2 crm) s = .next { s with waiting := true }) ∧
    ((s.flagI = true ∨ s.flagF = true) → exec (hwCdp s.cfg c s.cfg.opWait crn crd op2 crm) s = .next s)

/-- The memory-mapping request (46_swi_coprocessor.md R422; 20_memory.md R120, R121): CRd gets the status; unless it is
OK nothing else changes; it is OK exactly when the device exists, the range is page-aligned, non-empty and in the space,
and no page of it is a device page (and the host can allocate); then exactly the pages of the range are the device's.
Note: the spec's decisions D37 and D63; the order of the checks, the flags and the failing allocator are the model's,
log entries 10, 12, 13 and 18. -/
def Obligations.MapMemoryRequest : Prop :=
  ∀ (c : Cond) (crn crd : CrNum) (op2 : BitVec 3) (crm : CrNum) (s : State), s.passes c = true → s.cfg.Wf →
    let k := (s.cr .hwmgr crn).toNat
    let start := (s.cr .hwmgr crm).toNat
    let stop := (s.cr .hwmgr crd).toNat
    let inRange := fun i : Nat => start / 4096 ≤ i ∧ i < stop / 4096
    let rangeGood := start % 4096 = 0 ∧ stop % 4096 = 0 ∧ start < stop ∧ stop ≤ 2 ^ 26
    let free := ∀ i : Nat, inRange i → ∀ (p : Perm) (j : Nat), pageAt s.pages i ≠ some (.device p j)
    ∃ (t : State) (st : Status), exec (hwCdp s.cfg c s.cfg.opMapMemory crn crd op2 crm) s = .next t ∧
      t.cr .hwmgr crd = statusValue s.cfg st ∧ (∀ n : CrNum, n ≠ crd → t.cr .hwmgr n = s.cr .hwmgr n) ∧
      (s.devices.length ≤ k → st = .noSuchDevice) ∧
      (k < s.devices.length → ¬ rangeGood → st ≠ .ok) ∧
      (k < s.devices.length → rangeGood → ¬ free → st = .alreadyMapped) ∧
      (k < s.devices.length → rangeGood → free → st = if s.allocFails then .memoryError else .ok) ∧
      (st ≠ .ok → t = { s with crHwmgr := t.crHwmgr }) ∧
      (st = .ok →
        (∀ i : Nat, inRange i → ∃ p : Perm, pageAt t.pages i = some (.device p k)) ∧
        (∀ i : Nat, ¬ inRange i → pageAt t.pages i = pageAt s.pages i) ∧
        (∃ flags : Word, t.mappings = ⟨k, start, stop, flags⟩ :: s.mappings) ∧
        t = { s with
          crHwmgr := t.crHwmgr, pages := t.pages, mappings := t.mappings, devices := t.devices, draws := t.draws })

/-- The device operation (46_swi_coprocessor.md R427): the callback is called with the two arguments and CRd gets what
it returns; without the device or the callback CRd gets 0xFFFFFFFF and nothing else happens; a callback that re-enters
the core is refused (70_reset_and_hazards.md R613). The device's answer is the head of the model's input `deviceReplies`
(log entry 9). Note: the spec's decision D37; the device's answer is the model's input, log entry 9. -/
def Obligations.DeviceOperation : Prop :=
  ∀ (c : Cond) (crn crd : CrNum) (op2 : BitVec 3) (crm : CrNum) (s : State), s.passes c = true → s.cfg.Wf →
    let k := (s.cr .hwmgr crd).toNat
    (∀ (d : Device) (r : DeviceReply) (rest : List DeviceReply), s.devices[k]? = some d → d.operation = true →
      s.deviceReplies = r :: rest → r.reenters = false →
      ∃ t : State, exec (hwCdp s.cfg c s.cfg.opDeviceOp crn crd op2 crm) s = .next t ∧
        t.cr .hwmgr crd = r.value ∧ (∀ n : CrNum, n ≠ crd → t.cr .hwmgr n = s.cr .hwmgr n) ∧
        t.deviceCalls = .operation k (s.cr .hwmgr crn) (s.cr .hwmgr crm) :: s.deviceCalls ∧ t.deviceReplies = rest ∧
        t = { s with
          crHwmgr := t.crHwmgr, deviceCalls := t.deviceCalls, deviceReplies := t.deviceReplies, pinIrq := t.pinIrq,
          pinFiq := t.pinFiq, lastInterrupt := t.lastInterrupt } ∧
        (r.interrupt = none → t.pinIrq = s.pinIrq ∧ t.pinFiq = s.pinFiq ∧ t.lastInterrupt = s.lastInterrupt)) ∧
    (∀ (d : Device) (r : DeviceReply) (rest : List DeviceReply), s.devices[k]? = some d → d.operation = true →
      s.deviceReplies = r :: rest → r.reenters = true →
      exec (hwCdp s.cfg c s.cfg.opDeviceOp crn crd op2 crm) s = .refused .deviceReenters) ∧
    ((s.devices.length ≤ k ∨ ∃ d : Device, s.devices[k]? = some d ∧ d.operation = false) →
      ∃ t : State, exec (hwCdp s.cfg c s.cfg.opDeviceOp crn crd op2 crm) s = .next t ∧
        HwResult crd 0xFFFFFFFF#32 s t)

/-- CDP outside the hardware manager: to an unrecognised coprocessor it has no effect (46_swi_coprocessor.md R410,
R413); to the MMU or the interrupt controller it has no meaning (R430). Note: the spec's decisions D36 and D38. -/
def Obligations.OtherCoprocOperations : Prop :=
  ∀ (c : Cond) (op1 : BitVec 4) (crn crd : CrNum) (cp : BitVec 4) (op2 : BitVec 3) (crm : CrNum) (s : State),
    s.passes c = true → s.cfg.Wf →
    ((∀ k : Coproc, cp ≠ cpNumber s.cfg k) → exec (.cdp c op1 crn crd cp op2 crm) s = .next s) ∧
    (cp = s.cfg.cpMmu → exec (.cdp c op1 crn crd cp op2 crm) s = .refused .cdpMmu) ∧
    (cp = s.cfg.cpIntctl → exec (.cdp c op1 crn crd cp op2 crm) s = .refused .cdpIntctl)

/-! Exceptions, interrupts and debugging. -/

/-- Exception entry, for every kind of the table (60_exceptions.md R501, R511, R532), and the table of `LINK_VALUE` by
default: A + 4 for undefined instructions and software interrupts, A for aborts and address exceptions, the next
instruction for interrupts. Reset saves no link. Note: the spec's decisions D6, D7 and D34. -/
def Obligations.ExceptionEntry : Prop :=
  (∀ k : ExcKind, linkOffset Config.std k = if k = .undefinedInstruction ∨ k = .softwareInterrupt then 4#26 else 0#26) ∧
  ∀ (link : Addr) (s : State),
    (Entered .svc 0x04#26 false link s (enter .undefinedInstruction link s) ∧
     Entered .svc 0x08#26 false link s (enter .softwareInterrupt link s) ∧
     Entered .svc 0x0C#26 false link s (enter .prefetchAbort link s) ∧
     Entered .svc 0x10#26 false link s (enter .dataAbort link s) ∧
     Entered .svc 0x14#26 false link s (enter .addressException link s) ∧
     Entered .irq 0x18#26 false link s (enter .irq link s) ∧
     Entered .fiq 0x1C#26 true link s (enter .fiq link s)) ∧
    (let t := enter .reset link s
     t.mode = .svc ∧ t.pc = 0#26 ∧ t.flagI = true ∧ t.flagF = true ∧ t.regs = s.regs) ∧
    (∀ k : ExcKind,
      (enter k link s).pinIrq = (if k = .irq then false else s.pinIrq) ∧
      (enter k link s).pinFiq = (if k = .fiq then false else s.pinFiq) ∧
      raise k link s = enter k link { s with watchHit := false } ∧
      (let t := enter k link s
       t = { s with regs := t.regs, r15 := t.r15, pinIrq := t.pinIrq, pinFiq := t.pinFiq }))

/-- Return from an exception (60_exceptions.md R514; 40_data_processing.md R213): in a privileged mode `MOVS PC, R14`
writes all of R15; run as a handler's first instruction it restores the PSR bits and the PC that entry saved, and every
register outside the handler's R14 is still as it was. Note: the USR mask is the spec's decision D26, the link its
decision D6. -/
def Obligations.ExceptionReturn : Prop :=
  (∀ (c : Cond) (rn : RegNum) (s : State), s.passes c = true → s.mode ≠ .usr →
    exec (.movRsi c true rn 15#4 0#5 .lsl 14#4) s = .next { s with r15 := s.reg 14#4 }) ∧
  (∀ (k : ExcKind) (rn : RegNum) (link : Addr) (s : State), k ≠ .reset → link.toNat % 4 = 0 →
    ∃ t : State,
      exec (.movRsi .al true rn 15#4 0#5 .lsl 14#4) (enter k link s).advancePc = .next t ∧
      PsrKept s t ∧ t.pc = link ∧ t.mode = s.mode ∧ SlotsKept s t [slotOf (excEntry k).mode 14#4])

/-- Sampling at an instruction boundary (60_exceptions.md R508, R509, R512, R530): FIQ before IRQ, each only when its
mask is clear, with the PC plus its entry of `LINK_VALUE`, by default 0, as the link; the handler's first instruction
runs in the same step. A pin whose mask is set stays set. Note: the spec's decision D33, with D6 for the link; another
LINK_VALUE is log entry 20. -/
def Obligations.InterruptSampling : Prop :=
  ∀ s : State, s.initialized = true →
    (s.pinFiq = true → s.flagF = false →
      step s = step (enter .fiq (s.pc + s.cfg.linkValue.fiq) { s with waiting := false })) ∧
    (¬ (s.pinFiq = true ∧ s.flagF = false) → s.pinIrq = true → s.flagI = false →
      step s = step (enter .irq (s.pc + s.cfg.linkValue.irq) { s with waiting := false })) ∧
    (¬ (s.pinFiq = true ∧ s.flagF = false) → ¬ (s.pinIrq = true ∧ s.flagI = false) →
      beginStep s = { s with waiting := false, status := .ok })

/-- Interrupt injection (60_exceptions.md R531), for the default of `INTERRUPT_PIN`: a call is dropped, changing
nothing, when I is set or a pin is set; otherwise it sets the IRQ pin and the record and nothing else. Note: the spec's
decisions D35 and D53. -/
def Obligations.InterruptInjection : Prop :=
  ∀ (s : State) (deviceId code : Word), s.cfg.interruptPin = .irq →
    (hostInterrupt deviceId code s).1 = .ok ∧
    ((s.flagI = true ∨ s.pinIrq = true ∨ s.pinFiq = true) → (hostInterrupt deviceId code s).2 = s) ∧
    (s.flagI = false → s.pinIrq = false → s.pinFiq = false →
      (hostInterrupt deviceId code s).2 = { s with pinIrq := true, lastInterrupt := ⟨deviceId, code⟩ })

/-- Waiting (60_exceptions.md R533): with nothing unmasked pending a waiting core runs nothing and `run` returns
wait-for-interrupt; a pending unmasked pin ends the wait and the step goes on. Note: the spec's decision D51; the end of
the call is `status`, log entry 7. -/
def Obligations.Waiting : Prop :=
  ∀ s : State, s.initialized = true → s.waiting = true →
    (¬ (s.pinIrq = true ∧ s.flagI = false) → ¬ (s.pinFiq = true ∧ s.flagF = false) →
      step s = .next { s with status := .waitForInterrupt }) ∧
    ((s.pinIrq = true ∧ s.flagI = false) ∨ (s.pinFiq = true ∧ s.flagF = false) →
      step s = step { s with waiting := false })

/-- The breakpoint mask and the watchpoints (60_exceptions.md R540, R541, R542): a bit at the PC stops a bounded run
before the instruction, with nothing changed, and is a software interrupt in an unbounded one; a watchpoint hit stops a
bounded run after the instruction, whose effects stand, and is a software interrupt in an unbounded one. Note: the
spec's decisions D41 to D43; the end of the call is `status`, log entry 7, the links of the unbounded case log entry 20.
-/
def Obligations.DebugStops : Prop :=
  (∀ s : State, s.initialized = true → s.waiting = false → s.fiqPending = false → s.irqPending = false →
    maskBit s.bp s.pc = true →
    (s.bounded = true → step s = .next { s with status := .breakpointHit }) ∧
    (s.bounded = false → ∃ t : State, step s = .next t ∧
      Entered .svc 0x08#26 false (s.pc + s.cfg.linkValue.softwareInterrupt) s t ∧ t = { s with regs := t.regs, r15 := t.r15, status := .ok })) ∧
  (∀ (s : State) (w : Word) (u t : State), Fetches s → fetch s.pc { s with status := .ok } = .done w u →
    exec (decode s.cfg w) u.advancePc = .next t → t.watchHit = true → t.cfg.watchRollback = false →
    (t.bounded = true → step s = .next { t with watchHit := false, status := .breakpointHit }) ∧
    (t.bounded = false → ∃ v : State, step s = .next v ∧ Raised 0x08#26 t.pc t v))

/-- The host's debug API (60_exceptions.md R545; 20_memory.md R125): after `init` each call answers OK, sets or clears
the one bit of the word that holds its address, in one mask, and changes nothing else; `reset_breakpoints` clears its
mask, and `reset_watchpoints` clears both watchpoint masks, which is the model's choice (log entry 29). Before `init`
each call is rejected and changes nothing, which is the model's choice (log entry 24). Note: that reset_watchpoints
clears both watchpoint masks is the model's choice, DESIGN CHOICE, log entry 29; the statuses and the calls before init
are log entry 24. -/
def Obligations.DebugApi : Prop :=
  ∀ (a b : Addr) (s : State),
    let same := b.toNat / 4 = a.toNat / 4
    let calls := [setBreakpoint a s, unsetBreakpoint a s, setReadWatchpoint a s, unsetReadWatchpoint a s,
      setWriteWatchpoint a s, unsetWriteWatchpoint a s, resetBreakpoints s, resetWatchpoints s]
    (s.initialized = false → ∀ r ∈ calls, r = (.invalidCpuState, s)) ∧
    (s.initialized = true →
      (∀ r ∈ calls, r.1 = .ok) ∧
      (hasBreakpoint b (setBreakpoint a s).2 = true ↔ same ∨ hasBreakpoint b s = true) ∧
      (hasBreakpoint b (unsetBreakpoint a s).2 = true ↔ ¬ same ∧ hasBreakpoint b s = true) ∧
      (hasReadWatchpoint b (setReadWatchpoint a s).2 = true ↔ same ∨ hasReadWatchpoint b s = true) ∧
      (hasReadWatchpoint b (unsetReadWatchpoint a s).2 = true ↔ ¬ same ∧ hasReadWatchpoint b s = true) ∧
      (hasWriteWatchpoint b (setWriteWatchpoint a s).2 = true ↔ same ∨ hasWriteWatchpoint b s = true) ∧
      (hasWriteWatchpoint b (unsetWriteWatchpoint a s).2 = true ↔ ¬ same ∧ hasWriteWatchpoint b s = true) ∧
      hasBreakpoint b (resetBreakpoints s).2 = false ∧
      hasReadWatchpoint b (resetWatchpoints s).2 = false ∧ hasWriteWatchpoint b (resetWatchpoints s).2 = false ∧
      (∀ r ∈ [setBreakpoint a s, unsetBreakpoint a s, resetBreakpoints s], r.2 = { s with bp := r.2.bp }) ∧
      (∀ r ∈ [setReadWatchpoint a s, unsetReadWatchpoint a s], r.2 = { s with wr := r.2.wr }) ∧
      (∀ r ∈ [setWriteWatchpoint a s, unsetWriteWatchpoint a s], r.2 = { s with ww := r.2.ww }) ∧
      (resetWatchpoints s).2 = { s with wr := (resetWatchpoints s).2.wr, ww := (resetWatchpoints s).2.ww })

/-- A prefetch abort (60_exceptions.md R504; 20_memory.md R94): an absent page, or a failing device at the PC under the
default of `DEV_FAIL`, whose alternative gives it no meaning; the link is A plus its entry of `LINK_VALUE`, by default
A, and the instruction has no effect. Note: the spec's decisions D9, D46, D6 and D7; the alternatives of DEV_FAIL and
LINK_VALUE are log entry 20; the device's answer is the model's input, log entry 9. -/
def Obligations.PrefetchAborts : Prop :=
  ∀ s : State, Fetches s →
    (pageAt s.pages (s.pc.toNat / 4096) = none →
      ∃ t : State, step s = .next t ∧ Entered .svc 0x0C#26 false (s.pc + s.cfg.linkValue.prefetchAbort) s t ∧
        t = { s with regs := t.regs, r15 := t.r15, status := .ok }) ∧
    (∀ (p : Perm) (dev : Nat) (d : Device) (r : DeviceReply) (rest : List DeviceReply),
      pageAt s.pages (s.pc.toNat / 4096) = some (.device p dev) → s.devices[dev]? = some d →
      s.deviceReplies = r :: rest → r.reenters = false →
      (d.readWord = false ∨ r.fails = true) →
      (s.cfg.devFail = .abort →
        ∃ t : State, step s = .next t ∧ Entered .svc 0x0C#26 false (s.pc + s.cfg.linkValue.prefetchAbort) s t ∧
          t.mem = s.mem) ∧
      (s.cfg.devFail = .refuse → (s.mode ∈ s.cfg.permCheckModes → permAllows s.cfg .fetch p = true) →
        step s = .refused .deviceFailure))

/-! The whole machine. -/

/-- Reset (70_reset_and_hazards.md R600; 20_memory.md R89, R90): a size above the space is rejected and changes nothing;
otherwise SVC mode, I and F set, PC 0, pins and CPU flags clear, masks clear, registries empty, and RAM pages exactly
below the rounded size. Note: the spec's decisions D10 and D44; the failing allocator is the model's input, log entry
10. -/
def Obligations.Initialization : Prop :=
  ∀ (memsize : Nat) (perms : Nat → Perm) (s : State),
    let size := (memsize + 4095) / 4096 * 4096
    (2 ^ 26 < size → hostInit memsize perms s = (.valueError, s)) ∧
    (size ≤ 2 ^ 26 → s.allocFails = true → hostInit memsize perms s = (.memoryError, s)) ∧
    (size ≤ 2 ^ 26 → s.allocFails = false →
      (hostInit memsize perms s).1 = .ok ∧
      (let t := (hostInit memsize perms s).2
       t.initialized = true ∧ t.mode = .svc ∧ t.flagI = true ∧ t.flagF = true ∧ t.pc = 0#26 ∧
       t.pinFiq = false ∧ t.pinIrq = false ∧ t.waiting = false ∧ t.watchHit = false ∧
       (∀ a : Addr, maskBit t.bp a = false ∧ maskBit t.wr a = false ∧ maskBit t.ww a = false) ∧
       t.devices = [] ∧ t.mappings = [] ∧
       (∀ i : Nat, pageAt t.pages i = if i < size / 4096 then some (.ram (perms i)) else none)))

/-- The reset state is a good state. Note: the model's own invariant, over the canonical forms and parameters of log
entries 1, 4 and 5. -/
def Obligations.GoodAtReset : Prop :=
  State.reset.Good

/-- Every step of a good state leads to a good state: parameters, RAM, page table and masks stay in form, device pages
stay pages of registered devices, and no watchpoint hit is left over. Note: the model's own invariant, over the
canonical forms and parameters of log entries 1, 4 and 5. -/
def Obligations.GoodKept : Prop :=
  ∀ s t : State, s.Good → step s = .next t → t.Good

/-- Privilege (60_exceptions.md R520): an instruction run in USR mode either leaves I, F and M as they are or enters SVC
mode at the vector of a synchronous exception, with I set and F unchanged. Note: the spec's decisions D7, D24 and D26.
-/
def Obligations.UserCannotEscalate : Prop :=
  ∀ (i : Instr) (s t : State), s.cfg.Wf → s.mode = .usr → exec i s = .next t →
    (t.mode = .usr ∧ t.flagI = s.flagI ∧ t.flagF = s.flagF) ∨
    (t.mode = .svc ∧ t.flagI = true ∧ t.flagF = s.flagF ∧
      (t.pc = 0x04#26 ∨ t.pc = 0x08#26 ∨ t.pc = 0x10#26 ∨ t.pc = 0x14#26))

/-- Protection (20_memory.md R92): no instruction run in USR mode, when USR is a checked mode, changes a byte of a RAM
page that USR may not write. Note: the spec's decision D8. -/
def Obligations.UserCannotWrite : Prop :=
  ∀ (i : Instr) (s t : State) (b : Nat) (p : Perm), Memory.wf s.mem = true → s.mode = .usr →
    .usr ∈ s.cfg.permCheckModes → b < 2 ^ 26 → pageAt s.pages (b / 4096) = some (.ram p) → p.w = false →
    exec i s = .next t → memByte t.mem b = memByte s.mem b

/-- What instructions cannot change: the parameters, the masks, whether the core is initialized and the devices'
identities (10_state.md R54; 20_memory.md R124) never; the page table only by a mapping request to the hardware manager
(46_swi_coprocessor.md R422, R430); RAM only by STR, STRB, STM, SWP and SWPB. Note: the spec's decision D38; the
parameters are the model's field, log entry 1. -/
def Obligations.HostOwnedState : Prop :=
  ∀ (i : Instr) (s t : State), exec i s = .next t →
    t.cfg = s.cfg ∧ t.bp = s.bp ∧ t.wr = s.wr ∧ t.ww = s.ww ∧ t.initialized = s.initialized ∧
    t.devices.map (fun d => { d with range := none }) = s.devices.map (fun d => { d with range := none }) ∧
    (t.pages = s.pages ∨ ∃ (c : Cond) (crn crd : CrNum) (op2 : BitVec 3) (crm : CrNum),
      i = hwCdp s.cfg c s.cfg.opMapMemory crn crd op2 crm) ∧
    (t.mem = s.mem ∨
      (∃ (byte : Bool) (c : Cond) (pf uf wf : Bool) (rn rd : RegNum) (o : Offset),
        i = sdtInstr false byte c pf uf wf rn rd o) ∨
      (∃ (c : Cond) (pf uf sf wf : Bool) (rn : RegNum) (reglist : BitVec 16), i = .stm c pf uf sf wf rn reglist) ∨
      (∃ (byte : Bool) (c : Cond) (rn rd rm : RegNum), i = swapInstr byte c rn rd rm))
end

