-- ==== Sys2Proof/Laws/Bits.lean ====
section
/-! SUPPORT. The bits of a field, of R15 and of a little-endian word. -/

namespace Sys2Proof

theorem getLsbD_fieldAt {n : Nat} (v : BitVec n) (lo i : Nat) :
    (fieldAt v lo).getLsbD i = (decide (i < 32) && decide (lo ≤ i) && v.getLsbD (i - lo)) := by
  unfold fieldAt
  simp only [BitVec.getLsbD_shiftLeft, BitVec.getLsbD_setWidth]
  by_cases h2 : i < lo
  · have h3 : ¬ lo ≤ i := by omega
    simp [h2, h3]
  · have h3 : lo ≤ i := by omega
    have h4 : i < 32 → i - lo < 32 := by omega
    by_cases h : i < 32 <;> simp [h, h2, h3]
    exact fun _ => h4 h

theorem getElem_fieldAt {n : Nat} (v : BitVec n) (lo i : Nat) (h : i < 32) :
    (fieldAt v lo)[i] = (decide (lo ≤ i) && v.getLsbD (i - lo)) := by
  rw [← BitVec.getLsbD_eq_getElem, getLsbD_fieldAt]
  simp [h]

theorem getLsbD_bit (b : Bool) (i : Nat) : (bit b).getLsbD i = (decide (i = 0) && b) := by
  unfold bit
  rw [BitVec.getLsbD_ofBool]

theorem wordOfBytes_byteOfWord (w : Word) :
    wordOfBytes (byteOfWord w 0) (byteOfWord w 1) (byteOfWord w 2) (byteOfWord w 3) = w := by
  unfold wordOfBytes byteOfWord
  ext i hi
  simp only [BitVec.getElem_or, getElem_fieldAt, BitVec.getLsbD_extractLsb']
  interval_cases i <;> simp

namespace Machine

@[simp] theorem modeOfBits_modeBits (m : Mode) : modeOfBits (modeBits m) = m := by
  cases m <;> rfl

theorem modeBits_modeOfBits (b : BitVec 2) : modeBits (modeOfBits b) = b := by
  revert b; decide

/-! `Full(P)`. -/

theorem r15Full_bits (r : Word) (p : Addr) (i : Nat) (h : i < 32) :
    (r15Full r p)[i] = if 2 ≤ i ∧ i < 26 then p.getLsbD i else r.getLsbD i := by
  unfold r15Full
  simp only [BitVec.getElem_or, getElem_fieldAt, BitVec.getLsbD_extractLsb']
  interval_cases i <;> simp

@[simp] theorem r15Full_psr (r : Word) (p : Addr) : (r15Full r p).extractLsb' 26 6 = r.extractLsb' 26 6 := by
  ext i hi
  simp only [BitVec.getElem_extractLsb']
  rw [BitVec.getLsbD_eq_getElem (by omega), r15Full_bits]
  simp

@[simp] theorem r15Full_mode (r : Word) (p : Addr) : (r15Full r p).extractLsb' 0 2 = r.extractLsb' 0 2 := by
  ext i hi
  simp only [BitVec.getElem_extractLsb']
  rw [BitVec.getLsbD_eq_getElem (by omega), r15Full_bits]
  interval_cases i <;> simp

@[simp] theorem r15Full_field (r : Word) (p : Addr) : (r15Full r p).extractLsb' 2 24 = p.extractLsb' 2 24 := by
  ext i hi
  simp only [BitVec.getElem_extractLsb']
  rw [BitVec.getLsbD_eq_getElem (by omega), r15Full_bits]
  have : 2 ≤ 2 + i ∧ 2 + i < 26 := by omega
  simp [this]

theorem r15Full_flag (r : Word) (p : Addr) (i : Nat) (h : 26 ≤ i) : (r15Full r p).getLsbD i = r.getLsbD i := by
  by_cases h32 : i < 32
  · rw [BitVec.getLsbD_eq_getElem h32, r15Full_bits]
    have : ¬ (2 ≤ i ∧ i < 26) := by omega
    simp [this]
  · rw [BitVec.getLsbD_of_ge _ _ (by omega), BitVec.getLsbD_of_ge _ _ (by omega)]

@[simp] theorem r15Full_twice (r : Word) (p q : Addr) : r15Full (r15Full r p) q = r15Full r q := by
  ext i hi
  rw [r15Full_bits, r15Full_bits]
  by_cases h : 2 ≤ i ∧ i < 26
  · simp [h]
  · simp only [h, if_false]
    rw [BitVec.getLsbD_eq_getElem hi, r15Full_bits]
    simp [h]

/-! The PC field. -/

theorem r15Pc_bits (r : Word) (i : Nat) (h : i < 26) : (r15Pc r)[i] = (decide (2 ≤ i) && r.getLsbD i) := by
  unfold r15Pc
  simp only [BitVec.getElem_shiftLeft]
  by_cases h2 : i < 2
  · have : ¬ 2 ≤ i := by omega
    simp [h2, this]
  · have h2' : 2 ≤ i := by omega
    simp only [h2, h2', decide_true, Bool.true_and, decide_false, Bool.not_false]
    rw [← BitVec.getLsbD_eq_getElem]
    simp only [BitVec.getLsbD_setWidth, BitVec.getLsbD_extractLsb']
    have e : 2 + (i - 2) = i := by omega
    have a : i - 2 < 26 := by omega
    have b : i - 2 < 24 := by omega
    simp [e, a, b]

/-- The PC is a multiple of 4 (10_state.md R40, 20_memory.md R88). -/
@[simp] theorem r15Pc_aligned (r : Word) : (r15Pc r).extractLsb' 0 2 = 0#2 := by
  ext i hi
  simp only [BitVec.getElem_extractLsb', BitVec.getElem_zero]
  have h26 : i < 26 := by omega
  rw [BitVec.getLsbD_eq_getElem (show 0 + i < addressBits from by dsimp only [addressBits]; omega), r15Pc_bits]
  simp
  omega

theorem r15Pc_r15Full (r : Word) (p : Addr) (hp : p.extractLsb' 0 2 = 0#2) : r15Pc (r15Full r p) = p := by
  have b0 : p.getLsbD 0 = false := by
    simpa using congrArg (fun x => x.getLsbD 0) hp
  have b1 : p.getLsbD 1 = false := by
    simpa using congrArg (fun x => x.getLsbD 1) hp
  ext i hi
  dsimp only [addressBits] at hi
  rw [r15Pc_bits]
  rw [BitVec.getLsbD_eq_getElem (show i < 32 by omega), r15Full_bits]
  by_cases h : 2 ≤ i
  · have : 2 ≤ i ∧ i < 26 := ⟨h, hi⟩
    simp [this]
  · have hi2 : i = 0 ∨ i = 1 := by omega
    rcases hi2 with rfl | rfl
    · simpa using b0.symm
    · simpa using b1.symm

/-- A word is its PSR bits with its own PC. -/
theorem r15Full_r15Pc (r : Word) : r15Full r (r15Pc r) = r := by
  ext i hi
  rw [r15Full_bits]
  by_cases h : 2 ≤ i ∧ i < 26
  · rw [if_pos h, BitVec.getLsbD_eq_getElem h.2, r15Pc_bits, BitVec.getLsbD_eq_getElem hi]
    simp [h.1]
  · rw [if_neg h, BitVec.getLsbD_eq_getElem hi]

/-- The size of the space as a numeral (00_scope.md R10, R12). -/
@[simp] theorem two_pow_addressBits : 2 ^ addressBits = 67108864 := rfl

theorem addr_lt (a : Addr) : a.toNat < 67108864 := a.isLt

theorem aligned_iff (p : Addr) : p.extractLsb' 0 2 = 0#2 ↔ p.toNat % 4 = 0 := by
  rw [← BitVec.toNat_inj]
  simp [BitVec.extractLsb'_toNat]

theorem aligned_add_four (p : Addr) (hp : p.extractLsb' 0 2 = 0#2) : (p + 4#26).extractLsb' 0 2 = 0#2 := by
  rw [aligned_iff] at *
  simp only [BitVec.toNat_add, BitVec.toNat_ofNat, addressBits]
  omega

theorem aligned_sub_four (p : Addr) (hp : p.extractLsb' 0 2 = 0#2) : (p - 4#26).extractLsb' 0 2 = 0#2 := by
  rw [aligned_iff] at *
  simp only [BitVec.toNat_sub, BitVec.toNat_ofNat, addressBits]
  omega

/-! R15 on exception entry (60_exceptions.md R511). -/

theorem entryR15_bits (e : ExcEntry) (old : Word) (i : Nat) (h : i < 32) :
    (entryR15 e old)[i] =
      if i < 2 then (modeBits e.mode).getLsbD i
      else if i < 26 then e.vector.getLsbD i
      else if i = 26 then e.setsF || old.getLsbD 26
      else if i = 27 then true
      else old.getLsbD i := by
  unfold entryR15
  simp only [BitVec.getElem_or, getElem_fieldAt, BitVec.getLsbD_extractLsb', getLsbD_bit]
  interval_cases i <;> simp

/-! The flags written together. -/

theorem nzcv_bits (n z c v : Bool) (r : Word) (i : Nat) (h : i < 32) :
    (fieldAt (bit n) 31 ||| fieldAt (bit z) 30 ||| fieldAt (bit c) 29 ||| fieldAt (bit v) 28 |||
      fieldAt (r.extractLsb' 0 28) 0)[i] =
      if i = 31 then n else if i = 30 then z else if i = 29 then c else if i = 28 then v else r.getLsbD i := by
  simp only [BitVec.getElem_or, getElem_fieldAt, BitVec.getLsbD_extractLsb', getLsbD_bit]
  interval_cases i <;> simp

end Machine

end Sys2Proof
end

