-- ==== Sys2Proof/Laws/State.lean ====
section
/-! SUPPORT. What each named update of the state leaves in each field. -/

namespace Sys2Proof.Machine

namespace State

/-! `writePc` writes R15 only. -/

@[simp] theorem writePc_regs (s : State) (v : Word) : (s.writePc v).regs = s.regs := rfl
@[simp] theorem writePc_initialized (s : State) (v : Word) : (s.writePc v).initialized = s.initialized := rfl
@[simp] theorem writePc_waiting (s : State) (v : Word) : (s.writePc v).waiting = s.waiting := rfl
@[simp] theorem writePc_watchHit (s : State) (v : Word) : (s.writePc v).watchHit = s.watchHit := rfl
@[simp] theorem writePc_pinFiq (s : State) (v : Word) : (s.writePc v).pinFiq = s.pinFiq := rfl
@[simp] theorem writePc_pinIrq (s : State) (v : Word) : (s.writePc v).pinIrq = s.pinIrq := rfl
@[simp] theorem writePc_lastInterrupt (s : State) (v : Word) : (s.writePc v).lastInterrupt = s.lastInterrupt := rfl
@[simp] theorem writePc_crHwmgr (s : State) (v : Word) : (s.writePc v).crHwmgr = s.crHwmgr := rfl
@[simp] theorem writePc_crMmu (s : State) (v : Word) : (s.writePc v).crMmu = s.crMmu := rfl
@[simp] theorem writePc_crIntctl (s : State) (v : Word) : (s.writePc v).crIntctl = s.crIntctl := rfl
@[simp] theorem writePc_bp (s : State) (v : Word) : (s.writePc v).bp = s.bp := rfl
@[simp] theorem writePc_wr (s : State) (v : Word) : (s.writePc v).wr = s.wr := rfl
@[simp] theorem writePc_ww (s : State) (v : Word) : (s.writePc v).ww = s.ww := rfl
@[simp] theorem writePc_pages (s : State) (v : Word) : (s.writePc v).pages = s.pages := rfl
@[simp] theorem writePc_mem (s : State) (v : Word) : (s.writePc v).mem = s.mem := rfl
@[simp] theorem writePc_devices (s : State) (v : Word) : (s.writePc v).devices = s.devices := rfl
@[simp] theorem writePc_mappings (s : State) (v : Word) : (s.writePc v).mappings = s.mappings := rfl
@[simp] theorem writePc_freeRam (s : State) (v : Word) : (s.writePc v).freeRam = s.freeRam := rfl
@[simp] theorem writePc_cfg (s : State) (v : Word) : (s.writePc v).cfg = s.cfg := rfl
@[simp] theorem writePc_bounded (s : State) (v : Word) : (s.writePc v).bounded = s.bounded := rfl
@[simp] theorem writePc_status (s : State) (v : Word) : (s.writePc v).status = s.status := rfl
@[simp] theorem writePc_draws (s : State) (v : Word) : (s.writePc v).draws = s.draws := rfl
@[simp] theorem writePc_deviceReplies (s : State) (v : Word) : (s.writePc v).deviceReplies = s.deviceReplies := rfl
@[simp] theorem writePc_deviceCalls (s : State) (v : Word) : (s.writePc v).deviceCalls = s.deviceCalls := rfl
@[simp] theorem writePc_allocFails (s : State) (v : Word) : (s.writePc v).allocFails = s.allocFails := rfl

/-! `advancePc` writes R15 only. -/

@[simp] theorem advancePc_regs (s : State) : (s.advancePc).regs = s.regs := rfl
@[simp] theorem advancePc_initialized (s : State) : (s.advancePc).initialized = s.initialized := rfl
@[simp] theorem advancePc_waiting (s : State) : (s.advancePc).waiting = s.waiting := rfl
@[simp] theorem advancePc_watchHit (s : State) : (s.advancePc).watchHit = s.watchHit := rfl
@[simp] theorem advancePc_pinFiq (s : State) : (s.advancePc).pinFiq = s.pinFiq := rfl
@[simp] theorem advancePc_pinIrq (s : State) : (s.advancePc).pinIrq = s.pinIrq := rfl
@[simp] theorem advancePc_lastInterrupt (s : State) : (s.advancePc).lastInterrupt = s.lastInterrupt := rfl
@[simp] theorem advancePc_crHwmgr (s : State) : (s.advancePc).crHwmgr = s.crHwmgr := rfl
@[simp] theorem advancePc_crMmu (s : State) : (s.advancePc).crMmu = s.crMmu := rfl
@[simp] theorem advancePc_crIntctl (s : State) : (s.advancePc).crIntctl = s.crIntctl := rfl
@[simp] theorem advancePc_bp (s : State) : (s.advancePc).bp = s.bp := rfl
@[simp] theorem advancePc_wr (s : State) : (s.advancePc).wr = s.wr := rfl
@[simp] theorem advancePc_ww (s : State) : (s.advancePc).ww = s.ww := rfl
@[simp] theorem advancePc_pages (s : State) : (s.advancePc).pages = s.pages := rfl
@[simp] theorem advancePc_mem (s : State) : (s.advancePc).mem = s.mem := rfl
@[simp] theorem advancePc_devices (s : State) : (s.advancePc).devices = s.devices := rfl
@[simp] theorem advancePc_mappings (s : State) : (s.advancePc).mappings = s.mappings := rfl
@[simp] theorem advancePc_freeRam (s : State) : (s.advancePc).freeRam = s.freeRam := rfl
@[simp] theorem advancePc_cfg (s : State) : (s.advancePc).cfg = s.cfg := rfl
@[simp] theorem advancePc_bounded (s : State) : (s.advancePc).bounded = s.bounded := rfl
@[simp] theorem advancePc_status (s : State) : (s.advancePc).status = s.status := rfl
@[simp] theorem advancePc_draws (s : State) : (s.advancePc).draws = s.draws := rfl
@[simp] theorem advancePc_deviceReplies (s : State) : (s.advancePc).deviceReplies = s.deviceReplies := rfl
@[simp] theorem advancePc_deviceCalls (s : State) : (s.advancePc).deviceCalls = s.deviceCalls := rfl
@[simp] theorem advancePc_allocFails (s : State) : (s.advancePc).allocFails = s.allocFails := rfl

/-! `writeR15Full` writes R15 only. -/

@[simp] theorem writeR15Full_regs (s : State) (v : Word) : (s.writeR15Full v).regs = s.regs := rfl
@[simp] theorem writeR15Full_initialized (s : State) (v : Word) : (s.writeR15Full v).initialized = s.initialized := rfl
@[simp] theorem writeR15Full_waiting (s : State) (v : Word) : (s.writeR15Full v).waiting = s.waiting := rfl
@[simp] theorem writeR15Full_watchHit (s : State) (v : Word) : (s.writeR15Full v).watchHit = s.watchHit := rfl
@[simp] theorem writeR15Full_pinFiq (s : State) (v : Word) : (s.writeR15Full v).pinFiq = s.pinFiq := rfl
@[simp] theorem writeR15Full_pinIrq (s : State) (v : Word) : (s.writeR15Full v).pinIrq = s.pinIrq := rfl
@[simp] theorem writeR15Full_lastInterrupt (s : State) (v : Word) : (s.writeR15Full v).lastInterrupt = s.lastInterrupt := rfl
@[simp] theorem writeR15Full_crHwmgr (s : State) (v : Word) : (s.writeR15Full v).crHwmgr = s.crHwmgr := rfl
@[simp] theorem writeR15Full_crMmu (s : State) (v : Word) : (s.writeR15Full v).crMmu = s.crMmu := rfl
@[simp] theorem writeR15Full_crIntctl (s : State) (v : Word) : (s.writeR15Full v).crIntctl = s.crIntctl := rfl
@[simp] theorem writeR15Full_bp (s : State) (v : Word) : (s.writeR15Full v).bp = s.bp := rfl
@[simp] theorem writeR15Full_wr (s : State) (v : Word) : (s.writeR15Full v).wr = s.wr := rfl
@[simp] theorem writeR15Full_ww (s : State) (v : Word) : (s.writeR15Full v).ww = s.ww := rfl
@[simp] theorem writeR15Full_pages (s : State) (v : Word) : (s.writeR15Full v).pages = s.pages := rfl
@[simp] theorem writeR15Full_mem (s : State) (v : Word) : (s.writeR15Full v).mem = s.mem := rfl
@[simp] theorem writeR15Full_devices (s : State) (v : Word) : (s.writeR15Full v).devices = s.devices := rfl
@[simp] theorem writeR15Full_mappings (s : State) (v : Word) : (s.writeR15Full v).mappings = s.mappings := rfl
@[simp] theorem writeR15Full_freeRam (s : State) (v : Word) : (s.writeR15Full v).freeRam = s.freeRam := rfl
@[simp] theorem writeR15Full_cfg (s : State) (v : Word) : (s.writeR15Full v).cfg = s.cfg := rfl
@[simp] theorem writeR15Full_bounded (s : State) (v : Word) : (s.writeR15Full v).bounded = s.bounded := rfl
@[simp] theorem writeR15Full_status (s : State) (v : Word) : (s.writeR15Full v).status = s.status := rfl
@[simp] theorem writeR15Full_draws (s : State) (v : Word) : (s.writeR15Full v).draws = s.draws := rfl
@[simp] theorem writeR15Full_deviceReplies (s : State) (v : Word) : (s.writeR15Full v).deviceReplies = s.deviceReplies := rfl
@[simp] theorem writeR15Full_deviceCalls (s : State) (v : Word) : (s.writeR15Full v).deviceCalls = s.deviceCalls := rfl
@[simp] theorem writeR15Full_allocFails (s : State) (v : Word) : (s.writeR15Full v).allocFails = s.allocFails := rfl

/-! `writeR15User` writes R15 only. -/

@[simp] theorem writeR15User_regs (s : State) (v : Word) : (s.writeR15User v).regs = s.regs := rfl
@[simp] theorem writeR15User_initialized (s : State) (v : Word) : (s.writeR15User v).initialized = s.initialized := rfl
@[simp] theorem writeR15User_waiting (s : State) (v : Word) : (s.writeR15User v).waiting = s.waiting := rfl
@[simp] theorem writeR15User_watchHit (s : State) (v : Word) : (s.writeR15User v).watchHit = s.watchHit := rfl
@[simp] theorem writeR15User_pinFiq (s : State) (v : Word) : (s.writeR15User v).pinFiq = s.pinFiq := rfl
@[simp] theorem writeR15User_pinIrq (s : State) (v : Word) : (s.writeR15User v).pinIrq = s.pinIrq := rfl
@[simp] theorem writeR15User_lastInterrupt (s : State) (v : Word) : (s.writeR15User v).lastInterrupt = s.lastInterrupt := rfl
@[simp] theorem writeR15User_crHwmgr (s : State) (v : Word) : (s.writeR15User v).crHwmgr = s.crHwmgr := rfl
@[simp] theorem writeR15User_crMmu (s : State) (v : Word) : (s.writeR15User v).crMmu = s.crMmu := rfl
@[simp] theorem writeR15User_crIntctl (s : State) (v : Word) : (s.writeR15User v).crIntctl = s.crIntctl := rfl
@[simp] theorem writeR15User_bp (s : State) (v : Word) : (s.writeR15User v).bp = s.bp := rfl
@[simp] theorem writeR15User_wr (s : State) (v : Word) : (s.writeR15User v).wr = s.wr := rfl
@[simp] theorem writeR15User_ww (s : State) (v : Word) : (s.writeR15User v).ww = s.ww := rfl
@[simp] theorem writeR15User_pages (s : State) (v : Word) : (s.writeR15User v).pages = s.pages := rfl
@[simp] theorem writeR15User_mem (s : State) (v : Word) : (s.writeR15User v).mem = s.mem := rfl
@[simp] theorem writeR15User_devices (s : State) (v : Word) : (s.writeR15User v).devices = s.devices := rfl
@[simp] theorem writeR15User_mappings (s : State) (v : Word) : (s.writeR15User v).mappings = s.mappings := rfl
@[simp] theorem writeR15User_freeRam (s : State) (v : Word) : (s.writeR15User v).freeRam = s.freeRam := rfl
@[simp] theorem writeR15User_cfg (s : State) (v : Word) : (s.writeR15User v).cfg = s.cfg := rfl
@[simp] theorem writeR15User_bounded (s : State) (v : Word) : (s.writeR15User v).bounded = s.bounded := rfl
@[simp] theorem writeR15User_status (s : State) (v : Word) : (s.writeR15User v).status = s.status := rfl
@[simp] theorem writeR15User_draws (s : State) (v : Word) : (s.writeR15User v).draws = s.draws := rfl
@[simp] theorem writeR15User_deviceReplies (s : State) (v : Word) : (s.writeR15User v).deviceReplies = s.deviceReplies := rfl
@[simp] theorem writeR15User_deviceCalls (s : State) (v : Word) : (s.writeR15User v).deviceCalls = s.deviceCalls := rfl
@[simp] theorem writeR15User_allocFails (s : State) (v : Word) : (s.writeR15User v).allocFails = s.allocFails := rfl

/-! `setNzcv` writes R15 only. -/

@[simp] theorem setNzcv_regs (s : State) (n z c v : Bool) : (s.setNzcv n z c v).regs = s.regs := rfl
@[simp] theorem setNzcv_initialized (s : State) (n z c v : Bool) : (s.setNzcv n z c v).initialized = s.initialized := rfl
@[simp] theorem setNzcv_waiting (s : State) (n z c v : Bool) : (s.setNzcv n z c v).waiting = s.waiting := rfl
@[simp] theorem setNzcv_watchHit (s : State) (n z c v : Bool) : (s.setNzcv n z c v).watchHit = s.watchHit := rfl
@[simp] theorem setNzcv_pinFiq (s : State) (n z c v : Bool) : (s.setNzcv n z c v).pinFiq = s.pinFiq := rfl
@[simp] theorem setNzcv_pinIrq (s : State) (n z c v : Bool) : (s.setNzcv n z c v).pinIrq = s.pinIrq := rfl
@[simp] theorem setNzcv_lastInterrupt (s : State) (n z c v : Bool) : (s.setNzcv n z c v).lastInterrupt = s.lastInterrupt := rfl
@[simp] theorem setNzcv_crHwmgr (s : State) (n z c v : Bool) : (s.setNzcv n z c v).crHwmgr = s.crHwmgr := rfl
@[simp] theorem setNzcv_crMmu (s : State) (n z c v : Bool) : (s.setNzcv n z c v).crMmu = s.crMmu := rfl
@[simp] theorem setNzcv_crIntctl (s : State) (n z c v : Bool) : (s.setNzcv n z c v).crIntctl = s.crIntctl := rfl
@[simp] theorem setNzcv_bp (s : State) (n z c v : Bool) : (s.setNzcv n z c v).bp = s.bp := rfl
@[simp] theorem setNzcv_wr (s : State) (n z c v : Bool) : (s.setNzcv n z c v).wr = s.wr := rfl
@[simp] theorem setNzcv_ww (s : State) (n z c v : Bool) : (s.setNzcv n z c v).ww = s.ww := rfl
@[simp] theorem setNzcv_pages (s : State) (n z c v : Bool) : (s.setNzcv n z c v).pages = s.pages := rfl
@[simp] theorem setNzcv_mem (s : State) (n z c v : Bool) : (s.setNzcv n z c v).mem = s.mem := rfl
@[simp] theorem setNzcv_devices (s : State) (n z c v : Bool) : (s.setNzcv n z c v).devices = s.devices := rfl
@[simp] theorem setNzcv_mappings (s : State) (n z c v : Bool) : (s.setNzcv n z c v).mappings = s.mappings := rfl
@[simp] theorem setNzcv_freeRam (s : State) (n z c v : Bool) : (s.setNzcv n z c v).freeRam = s.freeRam := rfl
@[simp] theorem setNzcv_cfg (s : State) (n z c v : Bool) : (s.setNzcv n z c v).cfg = s.cfg := rfl
@[simp] theorem setNzcv_bounded (s : State) (n z c v : Bool) : (s.setNzcv n z c v).bounded = s.bounded := rfl
@[simp] theorem setNzcv_status (s : State) (n z c v : Bool) : (s.setNzcv n z c v).status = s.status := rfl
@[simp] theorem setNzcv_draws (s : State) (n z c v : Bool) : (s.setNzcv n z c v).draws = s.draws := rfl
@[simp] theorem setNzcv_deviceReplies (s : State) (n z c v : Bool) : (s.setNzcv n z c v).deviceReplies = s.deviceReplies := rfl
@[simp] theorem setNzcv_deviceCalls (s : State) (n z c v : Bool) : (s.setNzcv n z c v).deviceCalls = s.deviceCalls := rfl
@[simp] theorem setNzcv_allocFails (s : State) (n z c v : Bool) : (s.setNzcv n z c v).allocFails = s.allocFails := rfl

/-! `setAluFlags` writes R15 only. -/

@[simp] theorem setAluFlags_regs (s : State) (r : AluResult) : (s.setAluFlags r).regs = s.regs := rfl
@[simp] theorem setAluFlags_initialized (s : State) (r : AluResult) : (s.setAluFlags r).initialized = s.initialized := rfl
@[simp] theorem setAluFlags_waiting (s : State) (r : AluResult) : (s.setAluFlags r).waiting = s.waiting := rfl
@[simp] theorem setAluFlags_watchHit (s : State) (r : AluResult) : (s.setAluFlags r).watchHit = s.watchHit := rfl
@[simp] theorem setAluFlags_pinFiq (s : State) (r : AluResult) : (s.setAluFlags r).pinFiq = s.pinFiq := rfl
@[simp] theorem setAluFlags_pinIrq (s : State) (r : AluResult) : (s.setAluFlags r).pinIrq = s.pinIrq := rfl
@[simp] theorem setAluFlags_lastInterrupt (s : State) (r : AluResult) : (s.setAluFlags r).lastInterrupt = s.lastInterrupt := rfl
@[simp] theorem setAluFlags_crHwmgr (s : State) (r : AluResult) : (s.setAluFlags r).crHwmgr = s.crHwmgr := rfl
@[simp] theorem setAluFlags_crMmu (s : State) (r : AluResult) : (s.setAluFlags r).crMmu = s.crMmu := rfl
@[simp] theorem setAluFlags_crIntctl (s : State) (r : AluResult) : (s.setAluFlags r).crIntctl = s.crIntctl := rfl
@[simp] theorem setAluFlags_bp (s : State) (r : AluResult) : (s.setAluFlags r).bp = s.bp := rfl
@[simp] theorem setAluFlags_wr (s : State) (r : AluResult) : (s.setAluFlags r).wr = s.wr := rfl
@[simp] theorem setAluFlags_ww (s : State) (r : AluResult) : (s.setAluFlags r).ww = s.ww := rfl
@[simp] theorem setAluFlags_pages (s : State) (r : AluResult) : (s.setAluFlags r).pages = s.pages := rfl
@[simp] theorem setAluFlags_mem (s : State) (r : AluResult) : (s.setAluFlags r).mem = s.mem := rfl
@[simp] theorem setAluFlags_devices (s : State) (r : AluResult) : (s.setAluFlags r).devices = s.devices := rfl
@[simp] theorem setAluFlags_mappings (s : State) (r : AluResult) : (s.setAluFlags r).mappings = s.mappings := rfl
@[simp] theorem setAluFlags_freeRam (s : State) (r : AluResult) : (s.setAluFlags r).freeRam = s.freeRam := rfl
@[simp] theorem setAluFlags_cfg (s : State) (r : AluResult) : (s.setAluFlags r).cfg = s.cfg := rfl
@[simp] theorem setAluFlags_bounded (s : State) (r : AluResult) : (s.setAluFlags r).bounded = s.bounded := rfl
@[simp] theorem setAluFlags_status (s : State) (r : AluResult) : (s.setAluFlags r).status = s.status := rfl
@[simp] theorem setAluFlags_draws (s : State) (r : AluResult) : (s.setAluFlags r).draws = s.draws := rfl
@[simp] theorem setAluFlags_deviceReplies (s : State) (r : AluResult) : (s.setAluFlags r).deviceReplies = s.deviceReplies := rfl
@[simp] theorem setAluFlags_deviceCalls (s : State) (r : AluResult) : (s.setAluFlags r).deviceCalls = s.deviceCalls := rfl
@[simp] theorem setAluFlags_allocFails (s : State) (r : AluResult) : (s.setAluFlags r).allocFails = s.allocFails := rfl

/-! `writeR15S` writes R15 only. -/

@[simp] theorem writeR15S_regs (s : State) (v : Word) : (s.writeR15S v).regs = s.regs := by unfold writeR15S; split <;> rfl
@[simp] theorem writeR15S_initialized (s : State) (v : Word) : (s.writeR15S v).initialized = s.initialized := by unfold writeR15S; split <;> rfl
@[simp] theorem writeR15S_waiting (s : State) (v : Word) : (s.writeR15S v).waiting = s.waiting := by unfold writeR15S; split <;> rfl
@[simp] theorem writeR15S_watchHit (s : State) (v : Word) : (s.writeR15S v).watchHit = s.watchHit := by unfold writeR15S; split <;> rfl
@[simp] theorem writeR15S_pinFiq (s : State) (v : Word) : (s.writeR15S v).pinFiq = s.pinFiq := by unfold writeR15S; split <;> rfl
@[simp] theorem writeR15S_pinIrq (s : State) (v : Word) : (s.writeR15S v).pinIrq = s.pinIrq := by unfold writeR15S; split <;> rfl
@[simp] theorem writeR15S_lastInterrupt (s : State) (v : Word) : (s.writeR15S v).lastInterrupt = s.lastInterrupt := by unfold writeR15S; split <;> rfl
@[simp] theorem writeR15S_crHwmgr (s : State) (v : Word) : (s.writeR15S v).crHwmgr = s.crHwmgr := by unfold writeR15S; split <;> rfl
@[simp] theorem writeR15S_crMmu (s : State) (v : Word) : (s.writeR15S v).crMmu = s.crMmu := by unfold writeR15S; split <;> rfl
@[simp] theorem writeR15S_crIntctl (s : State) (v : Word) : (s.writeR15S v).crIntctl = s.crIntctl := by unfold writeR15S; split <;> rfl
@[simp] theorem writeR15S_bp (s : State) (v : Word) : (s.writeR15S v).bp = s.bp := by unfold writeR15S; split <;> rfl
@[simp] theorem writeR15S_wr (s : State) (v : Word) : (s.writeR15S v).wr = s.wr := by unfold writeR15S; split <;> rfl
@[simp] theorem writeR15S_ww (s : State) (v : Word) : (s.writeR15S v).ww = s.ww := by unfold writeR15S; split <;> rfl
@[simp] theorem writeR15S_pages (s : State) (v : Word) : (s.writeR15S v).pages = s.pages := by unfold writeR15S; split <;> rfl
@[simp] theorem writeR15S_mem (s : State) (v : Word) : (s.writeR15S v).mem = s.mem := by unfold writeR15S; split <;> rfl
@[simp] theorem writeR15S_devices (s : State) (v : Word) : (s.writeR15S v).devices = s.devices := by unfold writeR15S; split <;> rfl
@[simp] theorem writeR15S_mappings (s : State) (v : Word) : (s.writeR15S v).mappings = s.mappings := by unfold writeR15S; split <;> rfl
@[simp] theorem writeR15S_freeRam (s : State) (v : Word) : (s.writeR15S v).freeRam = s.freeRam := by unfold writeR15S; split <;> rfl
@[simp] theorem writeR15S_cfg (s : State) (v : Word) : (s.writeR15S v).cfg = s.cfg := by unfold writeR15S; split <;> rfl
@[simp] theorem writeR15S_bounded (s : State) (v : Word) : (s.writeR15S v).bounded = s.bounded := by unfold writeR15S; split <;> rfl
@[simp] theorem writeR15S_status (s : State) (v : Word) : (s.writeR15S v).status = s.status := by unfold writeR15S; split <;> rfl
@[simp] theorem writeR15S_draws (s : State) (v : Word) : (s.writeR15S v).draws = s.draws := by unfold writeR15S; split <;> rfl
@[simp] theorem writeR15S_deviceReplies (s : State) (v : Word) : (s.writeR15S v).deviceReplies = s.deviceReplies := by unfold writeR15S; split <;> rfl
@[simp] theorem writeR15S_deviceCalls (s : State) (v : Word) : (s.writeR15S v).deviceCalls = s.deviceCalls := by unfold writeR15S; split <;> rfl
@[simp] theorem writeR15S_allocFails (s : State) (v : Word) : (s.writeR15S v).allocFails = s.allocFails := by unfold writeR15S; split <;> rfl

/-! `psrWrite` writes R15 only. -/

@[simp] theorem psrWrite_regs (s : State) (v : Word) : (s.psrWrite v).regs = s.regs := by unfold psrWrite; split <;> rfl
@[simp] theorem psrWrite_initialized (s : State) (v : Word) : (s.psrWrite v).initialized = s.initialized := by unfold psrWrite; split <;> rfl
@[simp] theorem psrWrite_waiting (s : State) (v : Word) : (s.psrWrite v).waiting = s.waiting := by unfold psrWrite; split <;> rfl
@[simp] theorem psrWrite_watchHit (s : State) (v : Word) : (s.psrWrite v).watchHit = s.watchHit := by unfold psrWrite; split <;> rfl
@[simp] theorem psrWrite_pinFiq (s : State) (v : Word) : (s.psrWrite v).pinFiq = s.pinFiq := by unfold psrWrite; split <;> rfl
@[simp] theorem psrWrite_pinIrq (s : State) (v : Word) : (s.psrWrite v).pinIrq = s.pinIrq := by unfold psrWrite; split <;> rfl
@[simp] theorem psrWrite_lastInterrupt (s : State) (v : Word) : (s.psrWrite v).lastInterrupt = s.lastInterrupt := by unfold psrWrite; split <;> rfl
@[simp] theorem psrWrite_crHwmgr (s : State) (v : Word) : (s.psrWrite v).crHwmgr = s.crHwmgr := by unfold psrWrite; split <;> rfl
@[simp] theorem psrWrite_crMmu (s : State) (v : Word) : (s.psrWrite v).crMmu = s.crMmu := by unfold psrWrite; split <;> rfl
@[simp] theorem psrWrite_crIntctl (s : State) (v : Word) : (s.psrWrite v).crIntctl = s.crIntctl := by unfold psrWrite; split <;> rfl
@[simp] theorem psrWrite_bp (s : State) (v : Word) : (s.psrWrite v).bp = s.bp := by unfold psrWrite; split <;> rfl
@[simp] theorem psrWrite_wr (s : State) (v : Word) : (s.psrWrite v).wr = s.wr := by unfold psrWrite; split <;> rfl
@[simp] theorem psrWrite_ww (s : State) (v : Word) : (s.psrWrite v).ww = s.ww := by unfold psrWrite; split <;> rfl
@[simp] theorem psrWrite_pages (s : State) (v : Word) : (s.psrWrite v).pages = s.pages := by unfold psrWrite; split <;> rfl
@[simp] theorem psrWrite_mem (s : State) (v : Word) : (s.psrWrite v).mem = s.mem := by unfold psrWrite; split <;> rfl
@[simp] theorem psrWrite_devices (s : State) (v : Word) : (s.psrWrite v).devices = s.devices := by unfold psrWrite; split <;> rfl
@[simp] theorem psrWrite_mappings (s : State) (v : Word) : (s.psrWrite v).mappings = s.mappings := by unfold psrWrite; split <;> rfl
@[simp] theorem psrWrite_freeRam (s : State) (v : Word) : (s.psrWrite v).freeRam = s.freeRam := by unfold psrWrite; split <;> rfl
@[simp] theorem psrWrite_cfg (s : State) (v : Word) : (s.psrWrite v).cfg = s.cfg := by unfold psrWrite; split <;> rfl
@[simp] theorem psrWrite_bounded (s : State) (v : Word) : (s.psrWrite v).bounded = s.bounded := by unfold psrWrite; split <;> rfl
@[simp] theorem psrWrite_status (s : State) (v : Word) : (s.psrWrite v).status = s.status := by unfold psrWrite; split <;> rfl
@[simp] theorem psrWrite_draws (s : State) (v : Word) : (s.psrWrite v).draws = s.draws := by unfold psrWrite; split <;> rfl
@[simp] theorem psrWrite_deviceReplies (s : State) (v : Word) : (s.psrWrite v).deviceReplies = s.deviceReplies := by unfold psrWrite; split <;> rfl
@[simp] theorem psrWrite_deviceCalls (s : State) (v : Word) : (s.psrWrite v).deviceCalls = s.deviceCalls := by unfold psrWrite; split <;> rfl
@[simp] theorem psrWrite_allocFails (s : State) (v : Word) : (s.psrWrite v).allocFails = s.allocFails := by unfold psrWrite; split <;> rfl

/-! `setMulFlags` writes R15 and draws a free value. -/

@[simp] theorem setMulFlags_regs (s : State) (v : Word) : (s.setMulFlags v).regs = s.regs := rfl
@[simp] theorem setMulFlags_initialized (s : State) (v : Word) : (s.setMulFlags v).initialized = s.initialized := rfl
@[simp] theorem setMulFlags_waiting (s : State) (v : Word) : (s.setMulFlags v).waiting = s.waiting := rfl
@[simp] theorem setMulFlags_watchHit (s : State) (v : Word) : (s.setMulFlags v).watchHit = s.watchHit := rfl
@[simp] theorem setMulFlags_pinFiq (s : State) (v : Word) : (s.setMulFlags v).pinFiq = s.pinFiq := rfl
@[simp] theorem setMulFlags_pinIrq (s : State) (v : Word) : (s.setMulFlags v).pinIrq = s.pinIrq := rfl
@[simp] theorem setMulFlags_lastInterrupt (s : State) (v : Word) : (s.setMulFlags v).lastInterrupt = s.lastInterrupt := rfl
@[simp] theorem setMulFlags_crHwmgr (s : State) (v : Word) : (s.setMulFlags v).crHwmgr = s.crHwmgr := rfl
@[simp] theorem setMulFlags_crMmu (s : State) (v : Word) : (s.setMulFlags v).crMmu = s.crMmu := rfl
@[simp] theorem setMulFlags_crIntctl (s : State) (v : Word) : (s.setMulFlags v).crIntctl = s.crIntctl := rfl
@[simp] theorem setMulFlags_bp (s : State) (v : Word) : (s.setMulFlags v).bp = s.bp := rfl
@[simp] theorem setMulFlags_wr (s : State) (v : Word) : (s.setMulFlags v).wr = s.wr := rfl
@[simp] theorem setMulFlags_ww (s : State) (v : Word) : (s.setMulFlags v).ww = s.ww := rfl
@[simp] theorem setMulFlags_pages (s : State) (v : Word) : (s.setMulFlags v).pages = s.pages := rfl
@[simp] theorem setMulFlags_mem (s : State) (v : Word) : (s.setMulFlags v).mem = s.mem := rfl
@[simp] theorem setMulFlags_devices (s : State) (v : Word) : (s.setMulFlags v).devices = s.devices := rfl
@[simp] theorem setMulFlags_mappings (s : State) (v : Word) : (s.setMulFlags v).mappings = s.mappings := rfl
@[simp] theorem setMulFlags_freeRam (s : State) (v : Word) : (s.setMulFlags v).freeRam = s.freeRam := rfl
@[simp] theorem setMulFlags_cfg (s : State) (v : Word) : (s.setMulFlags v).cfg = s.cfg := rfl
@[simp] theorem setMulFlags_bounded (s : State) (v : Word) : (s.setMulFlags v).bounded = s.bounded := rfl
@[simp] theorem setMulFlags_status (s : State) (v : Word) : (s.setMulFlags v).status = s.status := rfl
@[simp] theorem setMulFlags_draws (s : State) (v : Word) : (s.setMulFlags v).draws = s.draws + 1 := rfl
@[simp] theorem setMulFlags_deviceReplies (s : State) (v : Word) : (s.setMulFlags v).deviceReplies = s.deviceReplies := rfl
@[simp] theorem setMulFlags_deviceCalls (s : State) (v : Word) : (s.setMulFlags v).deviceCalls = s.deviceCalls := rfl
@[simp] theorem setMulFlags_allocFails (s : State) (v : Word) : (s.setMulFlags v).allocFails = s.allocFails := rfl

/-! `setSlot` writes one register slot. -/

@[simp] theorem setSlot_initialized (s : State) (k : Slot) (v : Word) : (s.setSlot k v).initialized = s.initialized := by cases k <;> rfl
@[simp] theorem setSlot_waiting (s : State) (k : Slot) (v : Word) : (s.setSlot k v).waiting = s.waiting := by cases k <;> rfl
@[simp] theorem setSlot_watchHit (s : State) (k : Slot) (v : Word) : (s.setSlot k v).watchHit = s.watchHit := by cases k <;> rfl
@[simp] theorem setSlot_pinFiq (s : State) (k : Slot) (v : Word) : (s.setSlot k v).pinFiq = s.pinFiq := by cases k <;> rfl
@[simp] theorem setSlot_pinIrq (s : State) (k : Slot) (v : Word) : (s.setSlot k v).pinIrq = s.pinIrq := by cases k <;> rfl
@[simp] theorem setSlot_lastInterrupt (s : State) (k : Slot) (v : Word) : (s.setSlot k v).lastInterrupt = s.lastInterrupt := by cases k <;> rfl
@[simp] theorem setSlot_crHwmgr (s : State) (k : Slot) (v : Word) : (s.setSlot k v).crHwmgr = s.crHwmgr := by cases k <;> rfl
@[simp] theorem setSlot_crMmu (s : State) (k : Slot) (v : Word) : (s.setSlot k v).crMmu = s.crMmu := by cases k <;> rfl
@[simp] theorem setSlot_crIntctl (s : State) (k : Slot) (v : Word) : (s.setSlot k v).crIntctl = s.crIntctl := by cases k <;> rfl
@[simp] theorem setSlot_bp (s : State) (k : Slot) (v : Word) : (s.setSlot k v).bp = s.bp := by cases k <;> rfl
@[simp] theorem setSlot_wr (s : State) (k : Slot) (v : Word) : (s.setSlot k v).wr = s.wr := by cases k <;> rfl
@[simp] theorem setSlot_ww (s : State) (k : Slot) (v : Word) : (s.setSlot k v).ww = s.ww := by cases k <;> rfl
@[simp] theorem setSlot_pages (s : State) (k : Slot) (v : Word) : (s.setSlot k v).pages = s.pages := by cases k <;> rfl
@[simp] theorem setSlot_mem (s : State) (k : Slot) (v : Word) : (s.setSlot k v).mem = s.mem := by cases k <;> rfl
@[simp] theorem setSlot_devices (s : State) (k : Slot) (v : Word) : (s.setSlot k v).devices = s.devices := by cases k <;> rfl
@[simp] theorem setSlot_mappings (s : State) (k : Slot) (v : Word) : (s.setSlot k v).mappings = s.mappings := by cases k <;> rfl
@[simp] theorem setSlot_freeRam (s : State) (k : Slot) (v : Word) : (s.setSlot k v).freeRam = s.freeRam := by cases k <;> rfl
@[simp] theorem setSlot_cfg (s : State) (k : Slot) (v : Word) : (s.setSlot k v).cfg = s.cfg := by cases k <;> rfl
@[simp] theorem setSlot_bounded (s : State) (k : Slot) (v : Word) : (s.setSlot k v).bounded = s.bounded := by cases k <;> rfl
@[simp] theorem setSlot_status (s : State) (k : Slot) (v : Word) : (s.setSlot k v).status = s.status := by cases k <;> rfl
@[simp] theorem setSlot_draws (s : State) (k : Slot) (v : Word) : (s.setSlot k v).draws = s.draws := by cases k <;> rfl
@[simp] theorem setSlot_deviceReplies (s : State) (k : Slot) (v : Word) : (s.setSlot k v).deviceReplies = s.deviceReplies := by cases k <;> rfl
@[simp] theorem setSlot_deviceCalls (s : State) (k : Slot) (v : Word) : (s.setSlot k v).deviceCalls = s.deviceCalls := by cases k <;> rfl
@[simp] theorem setSlot_allocFails (s : State) (k : Slot) (v : Word) : (s.setSlot k v).allocFails = s.allocFails := by cases k <;> rfl

/-! `setReg` writes one register slot. -/

@[simp] theorem setReg_initialized (s : State) (r : RegNum) (v : Word) : (s.setReg r v).initialized = s.initialized := setSlot_initialized ..
@[simp] theorem setReg_waiting (s : State) (r : RegNum) (v : Word) : (s.setReg r v).waiting = s.waiting := setSlot_waiting ..
@[simp] theorem setReg_watchHit (s : State) (r : RegNum) (v : Word) : (s.setReg r v).watchHit = s.watchHit := setSlot_watchHit ..
@[simp] theorem setReg_pinFiq (s : State) (r : RegNum) (v : Word) : (s.setReg r v).pinFiq = s.pinFiq := setSlot_pinFiq ..
@[simp] theorem setReg_pinIrq (s : State) (r : RegNum) (v : Word) : (s.setReg r v).pinIrq = s.pinIrq := setSlot_pinIrq ..
@[simp] theorem setReg_lastInterrupt (s : State) (r : RegNum) (v : Word) : (s.setReg r v).lastInterrupt = s.lastInterrupt := setSlot_lastInterrupt ..
@[simp] theorem setReg_crHwmgr (s : State) (r : RegNum) (v : Word) : (s.setReg r v).crHwmgr = s.crHwmgr := setSlot_crHwmgr ..
@[simp] theorem setReg_crMmu (s : State) (r : RegNum) (v : Word) : (s.setReg r v).crMmu = s.crMmu := setSlot_crMmu ..
@[simp] theorem setReg_crIntctl (s : State) (r : RegNum) (v : Word) : (s.setReg r v).crIntctl = s.crIntctl := setSlot_crIntctl ..
@[simp] theorem setReg_bp (s : State) (r : RegNum) (v : Word) : (s.setReg r v).bp = s.bp := setSlot_bp ..
@[simp] theorem setReg_wr (s : State) (r : RegNum) (v : Word) : (s.setReg r v).wr = s.wr := setSlot_wr ..
@[simp] theorem setReg_ww (s : State) (r : RegNum) (v : Word) : (s.setReg r v).ww = s.ww := setSlot_ww ..
@[simp] theorem setReg_pages (s : State) (r : RegNum) (v : Word) : (s.setReg r v).pages = s.pages := setSlot_pages ..
@[simp] theorem setReg_mem (s : State) (r : RegNum) (v : Word) : (s.setReg r v).mem = s.mem := setSlot_mem ..
@[simp] theorem setReg_devices (s : State) (r : RegNum) (v : Word) : (s.setReg r v).devices = s.devices := setSlot_devices ..
@[simp] theorem setReg_mappings (s : State) (r : RegNum) (v : Word) : (s.setReg r v).mappings = s.mappings := setSlot_mappings ..
@[simp] theorem setReg_freeRam (s : State) (r : RegNum) (v : Word) : (s.setReg r v).freeRam = s.freeRam := setSlot_freeRam ..
@[simp] theorem setReg_cfg (s : State) (r : RegNum) (v : Word) : (s.setReg r v).cfg = s.cfg := setSlot_cfg ..
@[simp] theorem setReg_bounded (s : State) (r : RegNum) (v : Word) : (s.setReg r v).bounded = s.bounded := setSlot_bounded ..
@[simp] theorem setReg_status (s : State) (r : RegNum) (v : Word) : (s.setReg r v).status = s.status := setSlot_status ..
@[simp] theorem setReg_draws (s : State) (r : RegNum) (v : Word) : (s.setReg r v).draws = s.draws := setSlot_draws ..
@[simp] theorem setReg_deviceReplies (s : State) (r : RegNum) (v : Word) : (s.setReg r v).deviceReplies = s.deviceReplies := setSlot_deviceReplies ..
@[simp] theorem setReg_deviceCalls (s : State) (r : RegNum) (v : Word) : (s.setReg r v).deviceCalls = s.deviceCalls := setSlot_deviceCalls ..
@[simp] theorem setReg_allocFails (s : State) (r : RegNum) (v : Word) : (s.setReg r v).allocFails = s.allocFails := setSlot_allocFails ..

/-! `setUserReg` writes one register slot of the user bank. -/

@[simp] theorem setUserReg_initialized (s : State) (r : RegNum) (v : Word) : (s.setUserReg r v).initialized = s.initialized := setSlot_initialized ..
@[simp] theorem setUserReg_waiting (s : State) (r : RegNum) (v : Word) : (s.setUserReg r v).waiting = s.waiting := setSlot_waiting ..
@[simp] theorem setUserReg_watchHit (s : State) (r : RegNum) (v : Word) : (s.setUserReg r v).watchHit = s.watchHit := setSlot_watchHit ..
@[simp] theorem setUserReg_pinFiq (s : State) (r : RegNum) (v : Word) : (s.setUserReg r v).pinFiq = s.pinFiq := setSlot_pinFiq ..
@[simp] theorem setUserReg_pinIrq (s : State) (r : RegNum) (v : Word) : (s.setUserReg r v).pinIrq = s.pinIrq := setSlot_pinIrq ..
@[simp] theorem setUserReg_lastInterrupt (s : State) (r : RegNum) (v : Word) : (s.setUserReg r v).lastInterrupt = s.lastInterrupt := setSlot_lastInterrupt ..
@[simp] theorem setUserReg_crHwmgr (s : State) (r : RegNum) (v : Word) : (s.setUserReg r v).crHwmgr = s.crHwmgr := setSlot_crHwmgr ..
@[simp] theorem setUserReg_crMmu (s : State) (r : RegNum) (v : Word) : (s.setUserReg r v).crMmu = s.crMmu := setSlot_crMmu ..
@[simp] theorem setUserReg_crIntctl (s : State) (r : RegNum) (v : Word) : (s.setUserReg r v).crIntctl = s.crIntctl := setSlot_crIntctl ..
@[simp] theorem setUserReg_bp (s : State) (r : RegNum) (v : Word) : (s.setUserReg r v).bp = s.bp := setSlot_bp ..
@[simp] theorem setUserReg_wr (s : State) (r : RegNum) (v : Word) : (s.setUserReg r v).wr = s.wr := setSlot_wr ..
@[simp] theorem setUserReg_ww (s : State) (r : RegNum) (v : Word) : (s.setUserReg r v).ww = s.ww := setSlot_ww ..
@[simp] theorem setUserReg_pages (s : State) (r : RegNum) (v : Word) : (s.setUserReg r v).pages = s.pages := setSlot_pages ..
@[simp] theorem setUserReg_mem (s : State) (r : RegNum) (v : Word) : (s.setUserReg r v).mem = s.mem := setSlot_mem ..
@[simp] theorem setUserReg_devices (s : State) (r : RegNum) (v : Word) : (s.setUserReg r v).devices = s.devices := setSlot_devices ..
@[simp] theorem setUserReg_mappings (s : State) (r : RegNum) (v : Word) : (s.setUserReg r v).mappings = s.mappings := setSlot_mappings ..
@[simp] theorem setUserReg_freeRam (s : State) (r : RegNum) (v : Word) : (s.setUserReg r v).freeRam = s.freeRam := setSlot_freeRam ..
@[simp] theorem setUserReg_cfg (s : State) (r : RegNum) (v : Word) : (s.setUserReg r v).cfg = s.cfg := setSlot_cfg ..
@[simp] theorem setUserReg_bounded (s : State) (r : RegNum) (v : Word) : (s.setUserReg r v).bounded = s.bounded := setSlot_bounded ..
@[simp] theorem setUserReg_status (s : State) (r : RegNum) (v : Word) : (s.setUserReg r v).status = s.status := setSlot_status ..
@[simp] theorem setUserReg_draws (s : State) (r : RegNum) (v : Word) : (s.setUserReg r v).draws = s.draws := setSlot_draws ..
@[simp] theorem setUserReg_deviceReplies (s : State) (r : RegNum) (v : Word) : (s.setUserReg r v).deviceReplies = s.deviceReplies := setSlot_deviceReplies ..
@[simp] theorem setUserReg_deviceCalls (s : State) (r : RegNum) (v : Word) : (s.setUserReg r v).deviceCalls = s.deviceCalls := setSlot_deviceCalls ..
@[simp] theorem setUserReg_allocFails (s : State) (r : RegNum) (v : Word) : (s.setUserReg r v).allocFails = s.allocFails := setSlot_allocFails ..

/-! `setCr` writes one coprocessor register. -/

@[simp] theorem setCr_regs (s : State) (k : Coproc) (n : CrNum) (v : Word) : (s.setCr k n v).regs = s.regs := by cases k <;> rfl
@[simp] theorem setCr_r15 (s : State) (k : Coproc) (n : CrNum) (v : Word) : (s.setCr k n v).r15 = s.r15 := by cases k <;> rfl
@[simp] theorem setCr_initialized (s : State) (k : Coproc) (n : CrNum) (v : Word) : (s.setCr k n v).initialized = s.initialized := by cases k <;> rfl
@[simp] theorem setCr_waiting (s : State) (k : Coproc) (n : CrNum) (v : Word) : (s.setCr k n v).waiting = s.waiting := by cases k <;> rfl
@[simp] theorem setCr_watchHit (s : State) (k : Coproc) (n : CrNum) (v : Word) : (s.setCr k n v).watchHit = s.watchHit := by cases k <;> rfl
@[simp] theorem setCr_pinFiq (s : State) (k : Coproc) (n : CrNum) (v : Word) : (s.setCr k n v).pinFiq = s.pinFiq := by cases k <;> rfl
@[simp] theorem setCr_pinIrq (s : State) (k : Coproc) (n : CrNum) (v : Word) : (s.setCr k n v).pinIrq = s.pinIrq := by cases k <;> rfl
@[simp] theorem setCr_lastInterrupt (s : State) (k : Coproc) (n : CrNum) (v : Word) : (s.setCr k n v).lastInterrupt = s.lastInterrupt := by cases k <;> rfl
@[simp] theorem setCr_bp (s : State) (k : Coproc) (n : CrNum) (v : Word) : (s.setCr k n v).bp = s.bp := by cases k <;> rfl
@[simp] theorem setCr_wr (s : State) (k : Coproc) (n : CrNum) (v : Word) : (s.setCr k n v).wr = s.wr := by cases k <;> rfl
@[simp] theorem setCr_ww (s : State) (k : Coproc) (n : CrNum) (v : Word) : (s.setCr k n v).ww = s.ww := by cases k <;> rfl
@[simp] theorem setCr_pages (s : State) (k : Coproc) (n : CrNum) (v : Word) : (s.setCr k n v).pages = s.pages := by cases k <;> rfl
@[simp] theorem setCr_mem (s : State) (k : Coproc) (n : CrNum) (v : Word) : (s.setCr k n v).mem = s.mem := by cases k <;> rfl
@[simp] theorem setCr_devices (s : State) (k : Coproc) (n : CrNum) (v : Word) : (s.setCr k n v).devices = s.devices := by cases k <;> rfl
@[simp] theorem setCr_mappings (s : State) (k : Coproc) (n : CrNum) (v : Word) : (s.setCr k n v).mappings = s.mappings := by cases k <;> rfl
@[simp] theorem setCr_freeRam (s : State) (k : Coproc) (n : CrNum) (v : Word) : (s.setCr k n v).freeRam = s.freeRam := by cases k <;> rfl
@[simp] theorem setCr_cfg (s : State) (k : Coproc) (n : CrNum) (v : Word) : (s.setCr k n v).cfg = s.cfg := by cases k <;> rfl
@[simp] theorem setCr_bounded (s : State) (k : Coproc) (n : CrNum) (v : Word) : (s.setCr k n v).bounded = s.bounded := by cases k <;> rfl
@[simp] theorem setCr_status (s : State) (k : Coproc) (n : CrNum) (v : Word) : (s.setCr k n v).status = s.status := by cases k <;> rfl
@[simp] theorem setCr_draws (s : State) (k : Coproc) (n : CrNum) (v : Word) : (s.setCr k n v).draws = s.draws := by cases k <;> rfl
@[simp] theorem setCr_deviceReplies (s : State) (k : Coproc) (n : CrNum) (v : Word) : (s.setCr k n v).deviceReplies = s.deviceReplies := by cases k <;> rfl
@[simp] theorem setCr_deviceCalls (s : State) (k : Coproc) (n : CrNum) (v : Word) : (s.setCr k n v).deviceCalls = s.deviceCalls := by cases k <;> rfl
@[simp] theorem setCr_allocFails (s : State) (k : Coproc) (n : CrNum) (v : Word) : (s.setCr k n v).allocFails = s.allocFails := by cases k <;> rfl

end State

/-! `enter` writes R15, a link register and the pin of an interrupt. -/

@[simp] theorem enter_initialized (k : ExcKind) (a : Addr) (s : State) : (enter k a s).initialized = s.initialized := by unfold enter; cases k <;> rfl
@[simp] theorem enter_waiting (k : ExcKind) (a : Addr) (s : State) : (enter k a s).waiting = s.waiting := by unfold enter; cases k <;> rfl
@[simp] theorem enter_watchHit (k : ExcKind) (a : Addr) (s : State) : (enter k a s).watchHit = s.watchHit := by unfold enter; cases k <;> rfl
@[simp] theorem enter_lastInterrupt (k : ExcKind) (a : Addr) (s : State) : (enter k a s).lastInterrupt = s.lastInterrupt := by unfold enter; cases k <;> rfl
@[simp] theorem enter_crHwmgr (k : ExcKind) (a : Addr) (s : State) : (enter k a s).crHwmgr = s.crHwmgr := by unfold enter; cases k <;> rfl
@[simp] theorem enter_crMmu (k : ExcKind) (a : Addr) (s : State) : (enter k a s).crMmu = s.crMmu := by unfold enter; cases k <;> rfl
@[simp] theorem enter_crIntctl (k : ExcKind) (a : Addr) (s : State) : (enter k a s).crIntctl = s.crIntctl := by unfold enter; cases k <;> rfl
@[simp] theorem enter_bp (k : ExcKind) (a : Addr) (s : State) : (enter k a s).bp = s.bp := by unfold enter; cases k <;> rfl
@[simp] theorem enter_wr (k : ExcKind) (a : Addr) (s : State) : (enter k a s).wr = s.wr := by unfold enter; cases k <;> rfl
@[simp] theorem enter_ww (k : ExcKind) (a : Addr) (s : State) : (enter k a s).ww = s.ww := by unfold enter; cases k <;> rfl
@[simp] theorem enter_pages (k : ExcKind) (a : Addr) (s : State) : (enter k a s).pages = s.pages := by unfold enter; cases k <;> rfl
@[simp] theorem enter_mem (k : ExcKind) (a : Addr) (s : State) : (enter k a s).mem = s.mem := by unfold enter; cases k <;> rfl
@[simp] theorem enter_devices (k : ExcKind) (a : Addr) (s : State) : (enter k a s).devices = s.devices := by unfold enter; cases k <;> rfl
@[simp] theorem enter_mappings (k : ExcKind) (a : Addr) (s : State) : (enter k a s).mappings = s.mappings := by unfold enter; cases k <;> rfl
@[simp] theorem enter_freeRam (k : ExcKind) (a : Addr) (s : State) : (enter k a s).freeRam = s.freeRam := by unfold enter; cases k <;> rfl
@[simp] theorem enter_cfg (k : ExcKind) (a : Addr) (s : State) : (enter k a s).cfg = s.cfg := by unfold enter; cases k <;> rfl
@[simp] theorem enter_bounded (k : ExcKind) (a : Addr) (s : State) : (enter k a s).bounded = s.bounded := by unfold enter; cases k <;> rfl
@[simp] theorem enter_status (k : ExcKind) (a : Addr) (s : State) : (enter k a s).status = s.status := by unfold enter; cases k <;> rfl
@[simp] theorem enter_draws (k : ExcKind) (a : Addr) (s : State) : (enter k a s).draws = s.draws := by unfold enter; cases k <;> rfl
@[simp] theorem enter_deviceReplies (k : ExcKind) (a : Addr) (s : State) : (enter k a s).deviceReplies = s.deviceReplies := by unfold enter; cases k <;> rfl
@[simp] theorem enter_deviceCalls (k : ExcKind) (a : Addr) (s : State) : (enter k a s).deviceCalls = s.deviceCalls := by unfold enter; cases k <;> rfl
@[simp] theorem enter_allocFails (k : ExcKind) (a : Addr) (s : State) : (enter k a s).allocFails = s.allocFails := by unfold enter; cases k <;> rfl
@[simp] theorem enter_r15 (k : ExcKind) (a : Addr) (s : State) : (enter k a s).r15 = entryR15 (excEntry k) s.r15 := rfl
@[simp] theorem enter_pinIrq (k : ExcKind) (a : Addr) (s : State) :
    (enter k a s).pinIrq = if k = .irq then false else s.pinIrq := rfl
@[simp] theorem enter_pinFiq (k : ExcKind) (a : Addr) (s : State) :
    (enter k a s).pinFiq = if k = .fiq then false else s.pinFiq := rfl

/-! `raise` is `enter` with the watchpoint hit cleared. -/

@[simp] theorem raise_initialized (k : ExcKind) (a : Addr) (s : State) : (raise k a s).initialized = s.initialized := enter_initialized ..
@[simp] theorem raise_waiting (k : ExcKind) (a : Addr) (s : State) : (raise k a s).waiting = s.waiting := enter_waiting ..
@[simp] theorem raise_lastInterrupt (k : ExcKind) (a : Addr) (s : State) : (raise k a s).lastInterrupt = s.lastInterrupt := enter_lastInterrupt ..
@[simp] theorem raise_crHwmgr (k : ExcKind) (a : Addr) (s : State) : (raise k a s).crHwmgr = s.crHwmgr := enter_crHwmgr ..
@[simp] theorem raise_crMmu (k : ExcKind) (a : Addr) (s : State) : (raise k a s).crMmu = s.crMmu := enter_crMmu ..
@[simp] theorem raise_crIntctl (k : ExcKind) (a : Addr) (s : State) : (raise k a s).crIntctl = s.crIntctl := enter_crIntctl ..
@[simp] theorem raise_bp (k : ExcKind) (a : Addr) (s : State) : (raise k a s).bp = s.bp := enter_bp ..
@[simp] theorem raise_wr (k : ExcKind) (a : Addr) (s : State) : (raise k a s).wr = s.wr := enter_wr ..
@[simp] theorem raise_ww (k : ExcKind) (a : Addr) (s : State) : (raise k a s).ww = s.ww := enter_ww ..
@[simp] theorem raise_pages (k : ExcKind) (a : Addr) (s : State) : (raise k a s).pages = s.pages := enter_pages ..
@[simp] theorem raise_mem (k : ExcKind) (a : Addr) (s : State) : (raise k a s).mem = s.mem := enter_mem ..
@[simp] theorem raise_devices (k : ExcKind) (a : Addr) (s : State) : (raise k a s).devices = s.devices := enter_devices ..
@[simp] theorem raise_mappings (k : ExcKind) (a : Addr) (s : State) : (raise k a s).mappings = s.mappings := enter_mappings ..
@[simp] theorem raise_freeRam (k : ExcKind) (a : Addr) (s : State) : (raise k a s).freeRam = s.freeRam := enter_freeRam ..
@[simp] theorem raise_cfg (k : ExcKind) (a : Addr) (s : State) : (raise k a s).cfg = s.cfg := enter_cfg ..
@[simp] theorem raise_bounded (k : ExcKind) (a : Addr) (s : State) : (raise k a s).bounded = s.bounded := enter_bounded ..
@[simp] theorem raise_status (k : ExcKind) (a : Addr) (s : State) : (raise k a s).status = s.status := enter_status ..
@[simp] theorem raise_draws (k : ExcKind) (a : Addr) (s : State) : (raise k a s).draws = s.draws := enter_draws ..
@[simp] theorem raise_deviceReplies (k : ExcKind) (a : Addr) (s : State) : (raise k a s).deviceReplies = s.deviceReplies := enter_deviceReplies ..
@[simp] theorem raise_deviceCalls (k : ExcKind) (a : Addr) (s : State) : (raise k a s).deviceCalls = s.deviceCalls := enter_deviceCalls ..
@[simp] theorem raise_allocFails (k : ExcKind) (a : Addr) (s : State) : (raise k a s).allocFails = s.allocFails := enter_allocFails ..
@[simp] theorem raise_watchHit (k : ExcKind) (a : Addr) (s : State) : (raise k a s).watchHit = false := enter_watchHit ..
@[simp] theorem raise_r15 (k : ExcKind) (a : Addr) (s : State) : (raise k a s).r15 = entryR15 (excEntry k) s.r15 := rfl

/-! The marks write `watchHit` only. -/

@[simp] theorem markRead_regs (a : Addr) (s : State) : (markRead a s).regs = s.regs := by unfold markRead; split <;> rfl
@[simp] theorem markRead_r15 (a : Addr) (s : State) : (markRead a s).r15 = s.r15 := by unfold markRead; split <;> rfl
@[simp] theorem markRead_initialized (a : Addr) (s : State) : (markRead a s).initialized = s.initialized := by unfold markRead; split <;> rfl
@[simp] theorem markRead_waiting (a : Addr) (s : State) : (markRead a s).waiting = s.waiting := by unfold markRead; split <;> rfl
@[simp] theorem markRead_pinFiq (a : Addr) (s : State) : (markRead a s).pinFiq = s.pinFiq := by unfold markRead; split <;> rfl
@[simp] theorem markRead_pinIrq (a : Addr) (s : State) : (markRead a s).pinIrq = s.pinIrq := by unfold markRead; split <;> rfl
@[simp] theorem markRead_lastInterrupt (a : Addr) (s : State) : (markRead a s).lastInterrupt = s.lastInterrupt := by unfold markRead; split <;> rfl
@[simp] theorem markRead_crHwmgr (a : Addr) (s : State) : (markRead a s).crHwmgr = s.crHwmgr := by unfold markRead; split <;> rfl
@[simp] theorem markRead_crMmu (a : Addr) (s : State) : (markRead a s).crMmu = s.crMmu := by unfold markRead; split <;> rfl
@[simp] theorem markRead_crIntctl (a : Addr) (s : State) : (markRead a s).crIntctl = s.crIntctl := by unfold markRead; split <;> rfl
@[simp] theorem markRead_bp (a : Addr) (s : State) : (markRead a s).bp = s.bp := by unfold markRead; split <;> rfl
@[simp] theorem markRead_wr (a : Addr) (s : State) : (markRead a s).wr = s.wr := by unfold markRead; split <;> rfl
@[simp] theorem markRead_ww (a : Addr) (s : State) : (markRead a s).ww = s.ww := by unfold markRead; split <;> rfl
@[simp] theorem markRead_pages (a : Addr) (s : State) : (markRead a s).pages = s.pages := by unfold markRead; split <;> rfl
@[simp] theorem markRead_mem (a : Addr) (s : State) : (markRead a s).mem = s.mem := by unfold markRead; split <;> rfl
@[simp] theorem markRead_devices (a : Addr) (s : State) : (markRead a s).devices = s.devices := by unfold markRead; split <;> rfl
@[simp] theorem markRead_mappings (a : Addr) (s : State) : (markRead a s).mappings = s.mappings := by unfold markRead; split <;> rfl
@[simp] theorem markRead_freeRam (a : Addr) (s : State) : (markRead a s).freeRam = s.freeRam := by unfold markRead; split <;> rfl
@[simp] theorem markRead_cfg (a : Addr) (s : State) : (markRead a s).cfg = s.cfg := by unfold markRead; split <;> rfl
@[simp] theorem markRead_bounded (a : Addr) (s : State) : (markRead a s).bounded = s.bounded := by unfold markRead; split <;> rfl
@[simp] theorem markRead_status (a : Addr) (s : State) : (markRead a s).status = s.status := by unfold markRead; split <;> rfl
@[simp] theorem markRead_draws (a : Addr) (s : State) : (markRead a s).draws = s.draws := by unfold markRead; split <;> rfl
@[simp] theorem markRead_deviceReplies (a : Addr) (s : State) : (markRead a s).deviceReplies = s.deviceReplies := by unfold markRead; split <;> rfl
@[simp] theorem markRead_deviceCalls (a : Addr) (s : State) : (markRead a s).deviceCalls = s.deviceCalls := by unfold markRead; split <;> rfl
@[simp] theorem markRead_allocFails (a : Addr) (s : State) : (markRead a s).allocFails = s.allocFails := by unfold markRead; split <;> rfl
@[simp] theorem markWrite_regs (a : Addr) (s : State) : (markWrite a s).regs = s.regs := by unfold markWrite; split <;> rfl
@[simp] theorem markWrite_r15 (a : Addr) (s : State) : (markWrite a s).r15 = s.r15 := by unfold markWrite; split <;> rfl
@[simp] theorem markWrite_initialized (a : Addr) (s : State) : (markWrite a s).initialized = s.initialized := by unfold markWrite; split <;> rfl
@[simp] theorem markWrite_waiting (a : Addr) (s : State) : (markWrite a s).waiting = s.waiting := by unfold markWrite; split <;> rfl
@[simp] theorem markWrite_pinFiq (a : Addr) (s : State) : (markWrite a s).pinFiq = s.pinFiq := by unfold markWrite; split <;> rfl
@[simp] theorem markWrite_pinIrq (a : Addr) (s : State) : (markWrite a s).pinIrq = s.pinIrq := by unfold markWrite; split <;> rfl
@[simp] theorem markWrite_lastInterrupt (a : Addr) (s : State) : (markWrite a s).lastInterrupt = s.lastInterrupt := by unfold markWrite; split <;> rfl
@[simp] theorem markWrite_crHwmgr (a : Addr) (s : State) : (markWrite a s).crHwmgr = s.crHwmgr := by unfold markWrite; split <;> rfl
@[simp] theorem markWrite_crMmu (a : Addr) (s : State) : (markWrite a s).crMmu = s.crMmu := by unfold markWrite; split <;> rfl
@[simp] theorem markWrite_crIntctl (a : Addr) (s : State) : (markWrite a s).crIntctl = s.crIntctl := by unfold markWrite; split <;> rfl
@[simp] theorem markWrite_bp (a : Addr) (s : State) : (markWrite a s).bp = s.bp := by unfold markWrite; split <;> rfl
@[simp] theorem markWrite_wr (a : Addr) (s : State) : (markWrite a s).wr = s.wr := by unfold markWrite; split <;> rfl
@[simp] theorem markWrite_ww (a : Addr) (s : State) : (markWrite a s).ww = s.ww := by unfold markWrite; split <;> rfl
@[simp] theorem markWrite_pages (a : Addr) (s : State) : (markWrite a s).pages = s.pages := by unfold markWrite; split <;> rfl
@[simp] theorem markWrite_mem (a : Addr) (s : State) : (markWrite a s).mem = s.mem := by unfold markWrite; split <;> rfl
@[simp] theorem markWrite_devices (a : Addr) (s : State) : (markWrite a s).devices = s.devices := by unfold markWrite; split <;> rfl
@[simp] theorem markWrite_mappings (a : Addr) (s : State) : (markWrite a s).mappings = s.mappings := by unfold markWrite; split <;> rfl
@[simp] theorem markWrite_freeRam (a : Addr) (s : State) : (markWrite a s).freeRam = s.freeRam := by unfold markWrite; split <;> rfl
@[simp] theorem markWrite_cfg (a : Addr) (s : State) : (markWrite a s).cfg = s.cfg := by unfold markWrite; split <;> rfl
@[simp] theorem markWrite_bounded (a : Addr) (s : State) : (markWrite a s).bounded = s.bounded := by unfold markWrite; split <;> rfl
@[simp] theorem markWrite_status (a : Addr) (s : State) : (markWrite a s).status = s.status := by unfold markWrite; split <;> rfl
@[simp] theorem markWrite_draws (a : Addr) (s : State) : (markWrite a s).draws = s.draws := by unfold markWrite; split <;> rfl
@[simp] theorem markWrite_deviceReplies (a : Addr) (s : State) : (markWrite a s).deviceReplies = s.deviceReplies := by unfold markWrite; split <;> rfl
@[simp] theorem markWrite_deviceCalls (a : Addr) (s : State) : (markWrite a s).deviceCalls = s.deviceCalls := by unfold markWrite; split <;> rfl
@[simp] theorem markWrite_allocFails (a : Addr) (s : State) : (markWrite a s).allocFails = s.allocFails := by unfold markWrite; split <;> rfl

/-! `interrupt` writes the pins and the record only. -/

@[simp] theorem State.interrupt_regs (s : State) (d c : Word) : (s.interrupt d c).regs = s.regs := by
  unfold State.interrupt; split
  · rfl
  · split <;> rfl
@[simp] theorem State.interrupt_r15 (s : State) (d c : Word) : (s.interrupt d c).r15 = s.r15 := by
  unfold State.interrupt; split
  · rfl
  · split <;> rfl
@[simp] theorem State.interrupt_initialized (s : State) (d c : Word) : (s.interrupt d c).initialized = s.initialized := by
  unfold State.interrupt; split
  · rfl
  · split <;> rfl
@[simp] theorem State.interrupt_waiting (s : State) (d c : Word) : (s.interrupt d c).waiting = s.waiting := by
  unfold State.interrupt; split
  · rfl
  · split <;> rfl
@[simp] theorem State.interrupt_watchHit (s : State) (d c : Word) : (s.interrupt d c).watchHit = s.watchHit := by
  unfold State.interrupt; split
  · rfl
  · split <;> rfl
@[simp] theorem State.interrupt_crHwmgr (s : State) (d c : Word) : (s.interrupt d c).crHwmgr = s.crHwmgr := by
  unfold State.interrupt; split
  · rfl
  · split <;> rfl
@[simp] theorem State.interrupt_crMmu (s : State) (d c : Word) : (s.interrupt d c).crMmu = s.crMmu := by
  unfold State.interrupt; split
  · rfl
  · split <;> rfl
@[simp] theorem State.interrupt_crIntctl (s : State) (d c : Word) : (s.interrupt d c).crIntctl = s.crIntctl := by
  unfold State.interrupt; split
  · rfl
  · split <;> rfl
@[simp] theorem State.interrupt_bp (s : State) (d c : Word) : (s.interrupt d c).bp = s.bp := by
  unfold State.interrupt; split
  · rfl
  · split <;> rfl
@[simp] theorem State.interrupt_wr (s : State) (d c : Word) : (s.interrupt d c).wr = s.wr := by
  unfold State.interrupt; split
  · rfl
  · split <;> rfl
@[simp] theorem State.interrupt_ww (s : State) (d c : Word) : (s.interrupt d c).ww = s.ww := by
  unfold State.interrupt; split
  · rfl
  · split <;> rfl
@[simp] theorem State.interrupt_pages (s : State) (d c : Word) : (s.interrupt d c).pages = s.pages := by
  unfold State.interrupt; split
  · rfl
  · split <;> rfl
@[simp] theorem State.interrupt_mem (s : State) (d c : Word) : (s.interrupt d c).mem = s.mem := by
  unfold State.interrupt; split
  · rfl
  · split <;> rfl
@[simp] theorem State.interrupt_devices (s : State) (d c : Word) : (s.interrupt d c).devices = s.devices := by
  unfold State.interrupt; split
  · rfl
  · split <;> rfl
@[simp] theorem State.interrupt_mappings (s : State) (d c : Word) : (s.interrupt d c).mappings = s.mappings := by
  unfold State.interrupt; split
  · rfl
  · split <;> rfl
@[simp] theorem State.interrupt_freeRam (s : State) (d c : Word) : (s.interrupt d c).freeRam = s.freeRam := by
  unfold State.interrupt; split
  · rfl
  · split <;> rfl
@[simp] theorem State.interrupt_cfg (s : State) (d c : Word) : (s.interrupt d c).cfg = s.cfg := by
  unfold State.interrupt; split
  · rfl
  · split <;> rfl
@[simp] theorem State.interrupt_bounded (s : State) (d c : Word) : (s.interrupt d c).bounded = s.bounded := by
  unfold State.interrupt; split
  · rfl
  · split <;> rfl
@[simp] theorem State.interrupt_status (s : State) (d c : Word) : (s.interrupt d c).status = s.status := by
  unfold State.interrupt; split
  · rfl
  · split <;> rfl
@[simp] theorem State.interrupt_draws (s : State) (d c : Word) : (s.interrupt d c).draws = s.draws := by
  unfold State.interrupt; split
  · rfl
  · split <;> rfl
@[simp] theorem State.interrupt_deviceReplies (s : State) (d c : Word) : (s.interrupt d c).deviceReplies = s.deviceReplies := by
  unfold State.interrupt; split
  · rfl
  · split <;> rfl
@[simp] theorem State.interrupt_deviceCalls (s : State) (d c : Word) : (s.interrupt d c).deviceCalls = s.deviceCalls := by
  unfold State.interrupt; split
  · rfl
  · split <;> rfl
@[simp] theorem State.interrupt_allocFails (s : State) (d c : Word) : (s.interrupt d c).allocFails = s.allocFails := by
  unfold State.interrupt; split
  · rfl
  · split <;> rfl

end Sys2Proof.Machine
end

