-- ==== Sys2Proof/Laws/Memory.lean ====
section
/-! SUPPORT. RAM, masks and the page table: what a read after a write gives, and that every operation keeps the canonical
form. -/

namespace Sys2Proof.Machine

/-! RAM. -/

theorem wf_nil : Memory.wf [] = true := rfl

theorem wf_iff (m : List Host.Cell) :
    Memory.wf m = true ↔ m.Pairwise (fun x y => x.1 < y.1) ∧ ∀ x ∈ m, x.1 < 2 ^ 26 ∧ x.2 ≠ initByte := by
  simp [Memory.wf, List.all_eq_true, spaceBytes, addressBits]

theorem wf_cons (x : Host.Cell) (m : List Host.Cell) :
    Memory.wf (x :: m) = true ↔
      (∀ y ∈ m, x.1 < y.1) ∧ (x.1 < 2 ^ 26 ∧ x.2 ≠ initByte) ∧ Memory.wf m = true := by
  simp only [wf_iff, List.pairwise_cons, List.forall_mem_cons]
  tauto

/-- An address below every listed one is unlisted. -/
theorem memByte_of_lt (m : List Host.Cell) (a : Nat) (h : ∀ x ∈ m, a < x.1) : memByte m a = initByte := by
  induction m with
  | nil => rfl
  | cons x m ih =>
    have hx := h x (by simp)
    have : x.1 ≠ a := by omega
    simp only [memByte, this, if_false]
    exact ih fun y hy => h y (by simp [hy])

theorem memSetByte_keys (m : List Host.Cell) (a : Nat) (v : Byte) :
    ∀ x ∈ memSetByte m a v, x.1 = a ∧ x.2 = v ∧ v ≠ initByte ∨ x ∈ m := by
  induction m with
  | nil =>
    intro x hx
    by_cases hv : v = initByte
    · simp [memSetByte, hv] at hx
    · simp only [memSetByte, hv, if_false, List.mem_singleton] at hx
      simp [hx, hv]
  | cons y m ih =>
    intro x hx
    unfold memSetByte at hx
    split at hx
    · split at hx
      · exact .inr hx
      · rename_i hv
        rcases List.mem_cons.1 hx with rfl | hx
        · exact .inl ⟨rfl, rfl, hv⟩
        · exact .inr hx
    · split at hx
      · split at hx
        · exact .inr (List.mem_cons_of_mem _ hx)
        · rename_i hv
          rcases List.mem_cons.1 hx with rfl | hx
          · exact .inl ⟨rfl, rfl, hv⟩
          · exact .inr (List.mem_cons_of_mem _ hx)
      · rcases List.mem_cons.1 hx with rfl | hx
        · exact .inr (by simp)
        · rcases ih x hx with h | h
          · exact .inl h
          · exact .inr (List.mem_cons_of_mem _ h)

/-- A byte written keeps the canonical form. -/
theorem memSetByte_wf (m : List Host.Cell) (a : Nat) (v : Byte) (ha : a < 2 ^ 26) (h : Memory.wf m = true) :
    Memory.wf (memSetByte m a v) = true := by
  induction m with
  | nil =>
    by_cases hv : v = initByte
    · simp [memSetByte, hv, wf_nil]
    · simp only [memSetByte, hv, if_false, wf_cons, wf_nil]
      exact ⟨by simp, ⟨ha, hv⟩, trivial⟩
  | cons y m ih =>
    rw [wf_cons] at h
    obtain ⟨hlt, hy, hm⟩ := h
    unfold memSetByte
    split
    · rename_i hay
      split
      · rw [wf_cons]; exact ⟨hlt, hy, hm⟩
      · rename_i hv
        rw [wf_cons, wf_cons]
        refine ⟨?_, ⟨ha, hv⟩, hlt, hy, hm⟩
        intro z hz
        rcases List.mem_cons.1 hz with rfl | hz
        · exact hay
        · exact lt_trans hay (hlt z hz)
    · split
      · rename_i hay heq
        split
        · exact hm
        · rename_i hv
          rw [wf_cons]
          exact ⟨fun z hz => by have := hlt z hz; omega, ⟨ha, hv⟩, hm⟩
      · rename_i h1 h2
        rw [wf_cons]
        refine ⟨?_, hy, ih hm⟩
        intro z hz
        rcases memSetByte_keys m a v z hz with ⟨hz, -⟩ | hz
        · omega
        · exact hlt z hz

/-- A byte read after a byte written. -/
theorem memByte_memSetByte (m : List Host.Cell) (a b : Nat) (v : Byte) (h : Memory.wf m = true) :
    memByte (memSetByte m a v) b = if b = a then v else memByte m b := by
  induction m with
  | nil =>
    by_cases hv : v = initByte
    · simp [memSetByte, memByte, hv]
    · by_cases hb : b = a
      · simp [memSetByte, memByte, hv, hb]
      · have : ¬ a = b := fun e => hb e.symm
        simp [memSetByte, memByte, hv, hb, this]
  | cons y m ih =>
    rw [wf_cons] at h
    obtain ⟨hlt, hy, hm⟩ := h
    unfold memSetByte
    split
    · rename_i hay
      have hall : ∀ x ∈ y :: m, a < x.1 := by
        intro x hx
        rcases List.mem_cons.1 hx with rfl | hx
        · exact hay
        · exact lt_trans hay (hlt x hx)
      split
      · rename_i hv
        by_cases hb : b = a
        · subst hb
          rw [if_pos rfl, hv, memByte_of_lt _ _ hall]
        · simp [hb]
      · by_cases hb : b = a
        · simp [memByte, hb]
        · have : ¬ a = b := fun e => hb e.symm
          simp [memByte, hb, this]
    · split
      · rename_i hay
        subst hay
        split
        · rename_i hv
          by_cases hb : b = y.1
          · subst hb
            rw [if_pos rfl, hv, memByte_of_lt _ _ hlt]
          · have : ¬ y.1 = b := fun e => hb e.symm
            simp [memByte, hb, this]
        · by_cases hb : b = y.1
          · simp [memByte, hb]
          · have : ¬ y.1 = b := fun e => hb e.symm
            simp [memByte, hb, this]
      · rename_i h1 h2
        by_cases hb : y.1 = b
        · have : ¬ b = a := by omega
          simp [memByte, hb, this]
        · simp only [memByte, hb, if_false]
          exact ih hm

/-- The bytes of a word written. -/
theorem memByte_memSetWord (m : List Host.Cell) (a b : Nat) (v : Word) (ha : a + 3 < 2 ^ 26) (h : Memory.wf m = true) :
    memByte (memSetWord m a v) b = if a ≤ b ∧ b < a + 4 then byteOfWord v (b - a) else memByte m b := by
  unfold memSetWord
  have h0 := memSetByte_wf m a (byteOfWord v 0) (by omega) h
  have h1 := memSetByte_wf _ (a + 1) (byteOfWord v 1) (by omega) h0
  have h2 := memSetByte_wf _ (a + 2) (byteOfWord v 2) (by omega) h1
  rw [memByte_memSetByte _ _ _ _ h2, memByte_memSetByte _ _ _ _ h1, memByte_memSetByte _ _ _ _ h0,
    memByte_memSetByte _ _ _ _ h]
  by_cases hb : a ≤ b ∧ b < a + 4
  · obtain ⟨k, rfl⟩ : ∃ k, b = a + k := ⟨b - a, by omega⟩
    have hk : k < 4 := by omega
    rw [if_pos hb]
    interval_cases k <;> simp
  · rw [if_neg hb, if_neg (by omega), if_neg (by omega), if_neg (by omega), if_neg (by omega)]

theorem memSetWord_wf (m : List Host.Cell) (a : Nat) (v : Word) (ha : a + 3 < 2 ^ 26) (h : Memory.wf m = true) :
    Memory.wf (memSetWord m a v) = true :=
  memSetByte_wf _ _ _ (by omega) (memSetByte_wf _ _ _ (by omega) (memSetByte_wf _ _ _ (by omega)
    (memSetByte_wf _ _ _ (by omega) h)))

/-- A word read after it was written. -/
theorem memWord_memSetWord (m : List Host.Cell) (a : Nat) (v : Word) (ha : a + 3 < 2 ^ 26) (h : Memory.wf m = true) :
    memWord (memSetWord m a v) a = v := by
  unfold memWord
  rw [memByte_memSetWord _ _ _ _ ha h, memByte_memSetWord _ _ _ _ ha h, memByte_memSetWord _ _ _ _ ha h,
    memByte_memSetWord _ _ _ _ ha h, if_pos (by omega), if_pos (by omega), if_pos (by omega), if_pos (by omega)]
  have e1 : a + 1 - a = 1 := by omega
  have e2 : a + 2 - a = 2 := by omega
  have e3 : a + 3 - a = 3 := by omega
  rw [Nat.sub_self, e1, e2, e3, wordOfBytes_byteOfWord]

/-- An aligned 26-bit address has its whole word inside the space. -/
theorem aligned_word_fits (a : Addr) (h : a.extractLsb' 0 2 = 0#2) : a.toNat + 3 < 2 ^ 26 := by
  have : a.toNat < 2 ^ 26 := a.isLt
  rw [aligned_iff] at h
  omega

/-- RAM read and written, the byte order decided (20_memory.md R85). -/
theorem ramRead_eq (e : Endian) (m : List Host.Cell) (word : Bool) (a : Addr) :
    ramRead e m word a = if word then memWord m a.toNat else fieldAt (memByte m a.toNat) 0 := rfl

theorem ramWrite_eq (e : Endian) (m : List Host.Cell) (word : Bool) (a : Addr) (v : Word) :
    ramWrite e m word a v =
      if word then memSetWord m a.toNat v else memSetByte m a.toNat (v.extractLsb' 0 8) := rfl

theorem ramWrite_wf (e : Endian) (m : List Host.Cell) (word : Bool) (a : Addr) (v : Word) (h : Memory.wf m = true)
    (ha : word = true → a.extractLsb' 0 2 = 0#2) : Memory.wf (ramWrite e m word a v) = true := by
  rw [ramWrite_eq]
  cases word with
  | true => exact memSetWord_wf _ _ _ (aligned_word_fits a (ha rfl)) h
  | false => exact memSetByte_wf _ _ _ a.isLt h

/-- The bytes RAM holds after a write at `a`: the stored ones, and every other one as before. -/
theorem memByte_ramWrite (e : Endian) (m : List Host.Cell) (word : Bool) (a : Addr) (v : Word) (b : Nat)
    (h : Memory.wf m = true) (ha : word = true → a.extractLsb' 0 2 = 0#2) :
    memByte (ramWrite e m word a v) b =
      if a.toNat ≤ b ∧ b < a.toNat + (if word then 4 else 1) then byteOfWord v (b - a.toNat) else memByte m b := by
  rw [ramWrite_eq]
  cases word with
  | true => simpa using memByte_memSetWord m a.toNat b v (aligned_word_fits a (ha rfl)) h
  | false =>
    simp only [Bool.false_eq_true, if_false]
    rw [memByte_memSetByte _ _ _ _ h]
    by_cases hb : b = a.toNat
    · subst hb; simp [byteOfWord]
    · rw [if_neg hb, if_neg (by omega)]

/-! Masks. -/

theorem maskInsert_mem (m : List Nat) (k j : Nat) : j ∈ maskInsert m k ↔ j = k ∨ j ∈ m := by
  induction m with
  | nil => simp [maskInsert]
  | cons i m ih =>
    unfold maskInsert
    split
    · simp
    · split
      · rename_i h; subst h; simp
      · simp only [List.mem_cons, ih]; tauto

theorem maskWf_iff (m : List Nat) : maskWf m = true ↔ m.Pairwise (· < ·) ∧ ∀ j ∈ m, j < 2 ^ 24 := by
  simp [maskWf, List.all_eq_true, wordCount, spaceBytes, addressBits]

theorem maskInsert_wf (m : List Nat) (k : Nat) (hk : k < 2 ^ 24) (h : maskWf m = true) :
    maskWf (maskInsert m k) = true := by
  rw [maskWf_iff] at *
  refine ⟨?_, fun j hj => ?_⟩
  · obtain ⟨hp, -⟩ := h
    induction m with
    | nil => simp [maskInsert]
    | cons i m ih =>
      rw [List.pairwise_cons] at hp
      unfold maskInsert
      split
      · rename_i hki
        rw [List.pairwise_cons, List.pairwise_cons]
        refine ⟨fun x hx => ?_, hp.1, hp.2⟩
        rcases List.mem_cons.1 hx with rfl | hx
        · exact hki
        · exact lt_trans hki (hp.1 x hx)
      · split
        · exact List.pairwise_cons.2 hp
        · refine List.pairwise_cons.2 ⟨fun x hx => ?_, ih hp.2⟩
          rcases (maskInsert_mem m k x).1 hx with rfl | hx
          · omega
          · exact hp.1 x hx
  · rcases (maskInsert_mem m k j).1 hj with rfl | hj
    · exact hk
    · exact h.2 j hj

theorem maskClear_wf (m : List Nat) (a : Addr) (h : maskWf m = true) : maskWf (maskClear m a) = true := by
  rw [maskWf_iff] at *
  exact ⟨h.1.filter _, fun j hj => h.2 j (List.mem_filter.1 hj).1⟩

theorem maskBit_maskSet (m : List Nat) (a b : Addr) :
    maskBit (maskSet m a) b = (decide (b.toNat / 4 = a.toNat / 4) || maskBit m b) := by
  unfold maskBit maskSet
  rw [Bool.eq_iff_iff]
  simp [maskInsert_mem]

theorem maskBit_maskClear (m : List Nat) (a b : Addr) :
    maskBit (maskClear m a) b = (!decide (b.toNat / 4 = a.toNat / 4) && maskBit m b) := by
  unfold maskBit maskClear
  rw [Bool.eq_iff_iff]
  simp [and_comm]

/-! The page table. -/

theorem pageOf_eq (a : Addr) : pageOf a = a.toNat / 4096 := rfl

theorem pageAt_setPage (t : List (Nat × Page)) (i j : Nat) (p : Page) :
    pageAt (setPage t i p) j = if j = i then some p else pageAt t j := by
  induction t with
  | nil =>
    by_cases h : j = i
    · simp [setPage, pageAt, h]
    · have : ¬ i = j := fun e => h e.symm
      simp [setPage, pageAt, h, this]
  | cons x t ih =>
    unfold setPage
    split
    · by_cases h : j = i
      · simp [pageAt, h]
      · have : ¬ i = j := fun e => h e.symm
        simp [pageAt, h, this]
    · split
      · rename_i h1 h2
        subst h2
        by_cases h : j = x.1
        · simp [pageAt, h]
        · have : ¬ x.1 = j := fun e => h e.symm
          simp [pageAt, h, this]
      · rename_i h1 h2
        by_cases h : x.1 = j
        · have : ¬ j = i := by omega
          simp [pageAt, h, this]
        · simp only [pageAt, h, if_false]
          exact ih

theorem setPage_mem (t : List (Nat × Page)) (i : Nat) (p : Page) :
    ∀ x ∈ setPage t i p, x = (i, p) ∨ x ∈ t := by
  induction t with
  | nil => intro x hx; simpa [setPage] using hx
  | cons y t ih =>
    intro x hx
    unfold setPage at hx
    split at hx
    · rcases List.mem_cons.1 hx with h | h
      · exact .inl h
      · exact .inr h
    · split at hx
      · rcases List.mem_cons.1 hx with h | h
        · exact .inl h
        · exact .inr (List.mem_cons_of_mem _ h)
      · rcases List.mem_cons.1 hx with h | h
        · exact .inr (by simp [h])
        · rcases ih x h with h | h
          · exact .inl h
          · exact .inr (List.mem_cons_of_mem _ h)

theorem pagesWf_iff (t : List (Nat × Page)) :
    pagesWf t = true ↔ t.Pairwise (fun x y => x.1 < y.1) ∧ ∀ x ∈ t, x.1 < 16384 := by
  simp [pagesWf, List.all_eq_true, pageCount, spaceBytes, addressBits, pageBytes, pageBits]

theorem setPage_wf (t : List (Nat × Page)) (i : Nat) (p : Page) (hi : i < 16384) (h : pagesWf t = true) :
    pagesWf (setPage t i p) = true := by
  rw [pagesWf_iff] at *
  obtain ⟨hp, hb⟩ := h
  refine ⟨?_, fun x hx => ?_⟩
  · clear hb
    induction t with
    | nil => simp [setPage]
    | cons y t ih =>
      rw [List.pairwise_cons] at hp
      unfold setPage
      split
      · rename_i hiy
        refine List.pairwise_cons.2 ⟨fun x hx => ?_, List.pairwise_cons.2 hp⟩
        rcases List.mem_cons.1 hx with rfl | hx
        · exact hiy
        · exact lt_trans hiy (hp.1 x hx)
      · split
        · rename_i h1 h2
          refine List.pairwise_cons.2 ⟨fun x hx => ?_, hp.2⟩
          have := hp.1 x hx
          show i < x.1
          omega
        · refine List.pairwise_cons.2 ⟨fun x hx => ?_, ih hp.2⟩
          rcases setPage_mem t i p x hx with rfl | hx
          · show y.1 < i
            omega
          · exact hp.1 x hx
  · rcases setPage_mem t i p x hx with rfl | hx
    · exact hi
    · exact hb x hx

/-- A page found is listed. -/
theorem pageAt_mem (t : List (Nat × Page)) (i : Nat) (p : Page) (h : pageAt t i = some p) : (i, p) ∈ t := by
  induction t with
  | nil => simp [pageAt] at h
  | cons x t ih =>
    unfold pageAt at h
    split at h
    · rename_i hx
      cases h
      subst hx
      simp
    · exact List.mem_cons_of_mem _ (ih h)

end Sys2Proof.Machine
end

