-- ==== Sys2Proof/Laws/Registers.lean ====
section
/-! SUPPORT. The register bank: what reading a slot after writing one gives (10_state.md R30 to R36). -/

namespace Sys2Proof.Machine

/-! The effective-register table. -/

theorem slotOf_eq_r15 (m : Mode) (r : RegNum) : slotOf m r = .r15 ↔ r = 15#4 := by
  revert r; cases m <;> decide

theorem slotOf_inj (m : Mode) (r q : RegNum) : slotOf m r = slotOf m q ↔ r = q := by
  revert r q; cases m <;> decide

/-! Slots. -/

theorem getSlot_setSlot (s : State) (k j : Slot) (v : Word) :
    (s.setSlot k v).getSlot j = if j = k then v else s.getSlot j := by
  cases k <;> cases j <;> simp [State.setSlot, State.getSlot, Vector.getElem_set]
  all_goals
    simp only [Fin.ext_iff]
    congr 1
    exact propext eq_comm

@[simp] theorem getSlot_setSlot_self (s : State) (k : Slot) (v : Word) : (s.setSlot k v).getSlot k = v := by
  simp [getSlot_setSlot]

theorem getSlot_setSlot_ne (s : State) (k j : Slot) (v : Word) (h : j ≠ k) :
    (s.setSlot k v).getSlot j = s.getSlot j := by
  simp [getSlot_setSlot, h]

theorem setSlot_r15_of_ne (s : State) (k : Slot) (v : Word) (h : k ≠ .r15) : (s.setSlot k v).r15 = s.r15 := by
  cases k <;> first | rfl | exact absurd rfl h

/-- A slot other than R15 depends on the bank alone. -/
theorem getSlot_of_regs (s t : State) (k : Slot) (h : k ≠ .r15) (hr : t.regs = s.regs) : t.getSlot k = s.getSlot k := by
  cases k <;> first | exact absurd rfl h | (simp only [State.getSlot, hr])

/-- The slots say what the bank is. -/
theorem regs_ext (s t : State) (h : ∀ k, k ≠ .r15 → t.getSlot k = s.getSlot k) : t.regs = s.regs := by
  have hu : t.regs.user = s.regs.user := Vector.ext fun i hi => by simpa [State.getSlot] using h (.user ⟨i, hi⟩) (by simp)
  have hf : t.regs.fiq = s.regs.fiq := Vector.ext fun i hi => by simpa [State.getSlot] using h (.fiq ⟨i, hi⟩) (by simp)
  have hq : t.regs.irq = s.regs.irq := Vector.ext fun i hi => by simpa [State.getSlot] using h (.irq ⟨i, hi⟩) (by simp)
  have hv : t.regs.svc = s.regs.svc := Vector.ext fun i hi => by simpa [State.getSlot] using h (.svc ⟨i, hi⟩) (by simp)
  cases hs : s.regs; cases ht : t.regs
  simp_all

/-! Logical registers. -/

theorem setReg_r15 (s : State) (r : RegNum) (v : Word) (h : r ≠ 15#4) : (s.setReg r v).r15 = s.r15 :=
  setSlot_r15_of_ne _ _ _ (by rwa [Ne, slotOf_eq_r15])

theorem setUserReg_r15 (s : State) (r : RegNum) (v : Word) (h : r ≠ 15#4) : (s.setUserReg r v).r15 = s.r15 :=
  setSlot_r15_of_ne _ _ _ (by rwa [Ne, slotOf_eq_r15])

theorem mode_of_r15 (s t : State) (h : t.r15 = s.r15) : t.mode = s.mode := by
  simp only [State.mode, h]

theorem pc_of_r15 (s t : State) (h : t.r15 = s.r15) : t.pc = s.pc := by
  simp only [State.pc, h]

theorem setReg_mode (s : State) (r : RegNum) (v : Word) (h : r ≠ 15#4) : (s.setReg r v).mode = s.mode :=
  mode_of_r15 _ _ (setReg_r15 s r v h)

theorem setReg_pc (s : State) (r : RegNum) (v : Word) (h : r ≠ 15#4) : (s.setReg r v).pc = s.pc :=
  pc_of_r15 _ _ (setReg_r15 s r v h)

theorem reg_setReg_self (s : State) (r : RegNum) (v : Word) (h : r ≠ 15#4) : (s.setReg r v).reg r = v := by
  unfold State.reg
  rw [setReg_mode s r v h]
  exact getSlot_setSlot_self ..

theorem reg_setReg_ne (s : State) (r q : RegNum) (v : Word) (h : r ≠ 15#4) (hq : q ≠ r) :
    (s.setReg r v).reg q = s.reg q := by
  unfold State.reg
  rw [setReg_mode s r v h]
  exact getSlot_setSlot_ne _ _ _ _ (by rwa [Ne, slotOf_inj])

theorem getSlot_setReg (s : State) (r : RegNum) (v : Word) (k : Slot) :
    (s.setReg r v).getSlot k = if k = slotOf s.mode r then v else s.getSlot k :=
  getSlot_setSlot ..

/-- A register other than R15 depends on the bank and the mode. -/
theorem reg_congr (s t : State) (r : RegNum) (h : r ≠ 15#4) (hr : t.regs = s.regs) (hm : t.mode = s.mode) :
    t.reg r = s.reg r := by
  unfold State.reg
  rw [hm]
  exact getSlot_of_regs _ _ _ (by rwa [Ne, slotOf_eq_r15]) hr

/-- The bank after a write depends on the bank and the mode. -/
theorem setReg_regs_congr (s t : State) (r : RegNum) (v : Word) (hr : t.regs = s.regs) (hm : t.mode = s.mode) :
    (t.setReg r v).regs = (s.setReg r v).regs := by
  unfold State.setReg State.setSlot
  rw [hm]
  split <;> simp only [hr]

/-- Writing a register changes the bank and, for R15 only, R15. -/
theorem setReg_eq (s : State) (r : RegNum) (v : Word) :
    s.setReg r v = { s with regs := (s.setReg r v).regs, r15 := (s.setReg r v).r15 } := by
  unfold State.setReg State.setSlot
  split <;> rfl

/-- Writing a register other than R15 changes the bank only. -/
theorem setReg_eq_of_ne (s : State) (r : RegNum) (v : Word) (h : r ≠ 15#4) :
    s.setReg r v = { s with regs := (s.setReg r v).regs } := by
  conv_lhs => rw [setReg_eq, setReg_r15 s r v h]

/-! Taking an exception. -/

@[simp] theorem enter_mode (k : ExcKind) (a : Addr) (s : State) : (enter k a s).mode = (excEntry k).mode := by
  unfold State.mode
  rw [enter_r15]
  have : (entryR15 (excEntry k) s.r15).extractLsb' 0 2 = modeBits (excEntry k).mode := by
    ext i hi
    simp only [BitVec.getElem_extractLsb']
    rw [BitVec.getLsbD_eq_getElem (by omega), entryR15_bits]
    simp [hi]
  rw [this, modeOfBits_modeBits]

/-- The slots after entry: the link in R14 of the mode entered, every other one as before. -/
theorem getSlot_enter (k : ExcKind) (a : Addr) (s : State) (j : Slot) (h : j ≠ .r15) :
    (enter k a s).getSlot j =
      if (excEntry k).saves = true ∧ j = slotOf (excEntry k).mode 14#4 then r15Full s.r15 a else s.getSlot j := by
  have e : (enter k a s).getSlot j =
      (if (excEntry k).saves = true then s.setSlot (slotOf (excEntry k).mode 14#4) (r15Full s.r15 a) else s).getSlot j :=
    getSlot_of_regs _ _ _ h rfl
  rw [e]
  by_cases hs : (excEntry k).saves = true
  · simp [hs, getSlot_setSlot]
  · simp [hs]

end Sys2Proof.Machine
end

