-- ==== Sys2Proof/Laws/Access.lean ====
section
/-! SUPPORT. What an access can do to the state, for every way it ends (20_memory.md R93 to R101). -/

namespace Sys2Proof.Machine

/-- `t` is `s` but for RAM, `watch_hit`, the pins, the last-interrupt record and the model's record of its devices. -/
abbrev AccessEffect (s t : State) : Prop :=
  t = { s with
    mem := t.mem, watchHit := t.watchHit, pinFiq := t.pinFiq, pinIrq := t.pinIrq, lastInterrupt := t.lastInterrupt,
    draws := t.draws, deviceReplies := t.deviceReplies, deviceCalls := t.deviceCalls }

namespace AccessEffect

theorem refl (s : State) : AccessEffect s s := rfl

theorem trans {s t u : State} (h : AccessEffect s t) (k : AccessEffect t u) : AccessEffect s u := by
  cases s; cases t; cases u
  simp only [AccessEffect, State.mk.injEq] at *
  simp_all

theorem regs {s t : State} (h : AccessEffect s t) : t.regs = s.regs := (congrArg State.regs h :)
theorem r15 {s t : State} (h : AccessEffect s t) : t.r15 = s.r15 := (congrArg State.r15 h :)
theorem initialized {s t : State} (h : AccessEffect s t) : t.initialized = s.initialized := (congrArg State.initialized h :)
theorem waiting {s t : State} (h : AccessEffect s t) : t.waiting = s.waiting := (congrArg State.waiting h :)
theorem crHwmgr {s t : State} (h : AccessEffect s t) : t.crHwmgr = s.crHwmgr := (congrArg State.crHwmgr h :)
theorem crMmu {s t : State} (h : AccessEffect s t) : t.crMmu = s.crMmu := (congrArg State.crMmu h :)
theorem crIntctl {s t : State} (h : AccessEffect s t) : t.crIntctl = s.crIntctl := (congrArg State.crIntctl h :)
theorem bp {s t : State} (h : AccessEffect s t) : t.bp = s.bp := (congrArg State.bp h :)
theorem wr {s t : State} (h : AccessEffect s t) : t.wr = s.wr := (congrArg State.wr h :)
theorem ww {s t : State} (h : AccessEffect s t) : t.ww = s.ww := (congrArg State.ww h :)
theorem pages {s t : State} (h : AccessEffect s t) : t.pages = s.pages := (congrArg State.pages h :)
theorem devices {s t : State} (h : AccessEffect s t) : t.devices = s.devices := (congrArg State.devices h :)
theorem mappings {s t : State} (h : AccessEffect s t) : t.mappings = s.mappings := (congrArg State.mappings h :)
theorem cfg {s t : State} (h : AccessEffect s t) : t.cfg = s.cfg := (congrArg State.cfg h :)
theorem bounded {s t : State} (h : AccessEffect s t) : t.bounded = s.bounded := (congrArg State.bounded h :)
theorem status {s t : State} (h : AccessEffect s t) : t.status = s.status := (congrArg State.status h :)
theorem mode {s t : State} (h : AccessEffect s t) : t.mode = s.mode := mode_of_r15 _ _ h.r15
theorem pc {s t : State} (h : AccessEffect s t) : t.pc = s.pc := pc_of_r15 _ _ h.r15

theorem instrAddr {s t : State} (h : AccessEffect s t) : t.instrAddr = s.instrAddr := by
  simp only [State.instrAddr, h.pc]

theorem reg {s t : State} (h : AccessEffect s t) (r : RegNum) (hr : r ≠ 15#4) : t.reg r = s.reg r :=
  reg_congr _ _ _ hr h.regs h.mode

end AccessEffect

/-! Device callbacks. -/

theorem interrupt_effect (s : State) (d c : Word) : AccessEffect s (s.interrupt d c) ∧ (s.interrupt d c).mem = s.mem ∧
    (s.interrupt d c).watchHit = s.watchHit := by
  unfold State.interrupt
  split
  · exact ⟨rfl, rfl, rfl⟩
  · split <;> exact ⟨rfl, rfl, rfl⟩

theorem replyInterrupt_effect (r : DeviceReply) (s : State) : AccessEffect s (replyInterrupt r s) ∧
    (replyInterrupt r s).mem = s.mem ∧ (replyInterrupt r s).watchHit = s.watchHit := by
  unfold replyInterrupt
  split
  · exact interrupt_effect ..
  · exact ⟨rfl, rfl, rfl⟩

theorem nextReply_effect (s : State) : AccessEffect s (nextReply s).2 ∧ (nextReply s).2.mem = s.mem ∧
    (nextReply s).2.watchHit = s.watchHit := by
  unfold nextReply
  split <;> exact ⟨rfl, rfl, rfl⟩

/-- Whatever way an access ends without being refused, the state it leaves satisfies `P`. -/
def Access.Leaves {α : Type} (r : Access α) (P : State → Prop) : Prop :=
  match r with
  | .done _ t => P t
  | .abort t => P t
  | .refused _ => True

/-- A callback changes no RAM and marks nothing. -/
theorem callDevice_leaves (call : DeviceCall) (s : State) :
    (callDevice call s).Leaves fun t => AccessEffect s t ∧ t.mem = s.mem ∧ t.watchHit = s.watchHit := by
  have h1 := nextReply_effect s
  have h2 := replyInterrupt_effect (nextReply s).1
    { (nextReply s).2 with deviceCalls := call :: (nextReply s).2.deviceCalls }
  have h : AccessEffect s { (nextReply s).2 with deviceCalls := call :: (nextReply s).2.deviceCalls } :=
    h1.1.trans rfl
  have k : ∀ t, t = replyInterrupt (nextReply s).1
      { (nextReply s).2 with deviceCalls := call :: (nextReply s).2.deviceCalls } →
      AccessEffect s t ∧ t.mem = s.mem ∧ t.watchHit = s.watchHit := by
    rintro t rfl
    exact ⟨h.trans h2.1, h2.2.1.trans h1.2.1, h2.2.2.trans h1.2.2⟩
  unfold callDevice
  split
  · trivial
  · dsimp only
    split
    · exact k _ rfl
    · exact k _ rfl

theorem deviceFailed_leaves (s : State) :
    (deviceFailed s).Leaves fun t => AccessEffect s t ∧ t.mem = s.mem ∧ t.watchHit = s.watchHit := by
  unfold deviceFailed
  split
  · exact ⟨rfl, rfl, rfl⟩
  · trivial

/-- An access through a callback changes no RAM and marks nothing. -/
theorem deviceAccess_leaves (call : DeviceCall) (s : State) :
    (deviceAccess call s).Leaves fun t => AccessEffect s t ∧ t.mem = s.mem ∧ t.watchHit = s.watchHit := by
  have h := callDevice_leaves call s
  unfold deviceAccess deviceFailed
  split <;> rename_i t hd <;> rw [hd] at h
  · exact h
  · split
    · exact h
    · trivial
  · trivial

theorem devRead_leaves (dev : Nat) (word : Bool) (a : Addr) (s : State) :
    (devRead dev word a s).Leaves fun t => AccessEffect s t ∧ t.mem = s.mem ∧ t.watchHit = s.watchHit := by
  unfold devRead
  split
  · exact deviceFailed_leaves s
  · split
    · split
      · exact deviceAccess_leaves ..
      · exact deviceFailed_leaves s
    · split
      · have h := deviceAccess_leaves (.readByte dev (pageOffset a)) s
        split <;> rename_i hd <;> rw [hd] at h
        · exact h
        · exact h
        · trivial
      · exact deviceFailed_leaves s

theorem devWrite_leaves (dev : Nat) (word : Bool) (a : Addr) (v : Word) (s : State) :
    (devWrite dev word a v s).Leaves fun t => AccessEffect s t ∧ t.mem = s.mem ∧ t.watchHit = s.watchHit := by
  unfold devWrite
  split
  · exact deviceFailed_leaves s
  · split
    · split
      · exact deviceAccess_leaves ..
      · exact deviceFailed_leaves s
    · split
      · exact deviceAccess_leaves ..
      · trivial

/-! Accesses. -/

theorem markRead_effect (a : Addr) (s : State) : AccessEffect s (markRead a s) ∧ (markRead a s).mem = s.mem := by
  unfold markRead
  split <;> exact ⟨rfl, rfl⟩

theorem markWrite_effect (a : Addr) (s : State) : AccessEffect s (markWrite a s) ∧ (markWrite a s).mem = s.mem := by
  unfold markWrite
  split <;> exact ⟨rfl, rfl⟩

/-- A data read changes no RAM. -/
theorem memRead_leaves (word : Bool) (a : Addr) (s : State) :
    (memRead word a s).Leaves fun t => AccessEffect s t ∧ t.mem = s.mem := by
  unfold memRead
  split
  · exact ⟨rfl, rfl⟩
  · exact markRead_effect a s
  · rename_i p dev _
    have h := devRead_leaves dev word a s
    split <;> rename_i hd <;> rw [hd] at h
    · exact ⟨h.1.trans (markRead_effect a _).1, (markRead_effect a _).2.trans h.2.1⟩
    · exact ⟨h.1, h.2.1⟩
    · trivial

/-- A fetch changes no RAM and marks nothing. -/
theorem fetch_leaves (a : Addr) (s : State) :
    (fetch a s).Leaves fun t => AccessEffect s t ∧ t.mem = s.mem ∧ t.watchHit = s.watchHit := by
  unfold fetch
  split
  · exact ⟨rfl, rfl, rfl⟩
  · exact ⟨rfl, rfl, rfl⟩
  · exact devRead_leaves ..

/-- A data write changes RAM only in a RAM page that the walk allows. -/
theorem memWrite_leaves (word : Bool) (a : Addr) (v : Word) (s : State) :
    (memWrite word a v s).Leaves fun t => AccessEffect s t ∧
      (t.mem = s.mem ∨ ((∃ p, walk s .write a word = some (.ram p)) ∧ t.mem = ramWrite s.cfg.endian s.mem word a v)) := by
  unfold memWrite
  split
  · exact ⟨rfl, .inl rfl⟩
  · rename_i p hw
    refine ⟨AccessEffect.trans (t := { s with mem := ramWrite s.cfg.endian s.mem word a v }) rfl (markWrite_effect a _).1,
      .inr ⟨⟨p, hw⟩, (markWrite_effect a _).2⟩⟩
  · rename_i p dev _
    have h := devWrite_leaves dev word a v s
    split <;> rename_i hd <;> rw [hd] at h
    · exact ⟨h.1.trans (markWrite_effect a _).1, .inl ((markWrite_effect a _).2.trans h.2.1)⟩
    · exact ⟨h.1, .inl h.2.1⟩
    · trivial

/-- An abort of a data write leaves RAM as it was. -/
theorem memWrite_abort_mem (word : Bool) (a : Addr) (v : Word) (s t : State) (h : memWrite word a v s = .abort t) :
    t.mem = s.mem := by
  unfold memWrite at h
  split at h
  · cases h; rfl
  · cases h
  · rename_i p dev _
    have k := devWrite_leaves dev word a v s
    split at h
    · cases h
    · rename_i hd; cases h; rw [hd] at k; exact k.2.1
    · cases h

/-! The walk. -/

/-- The walk succeeds exactly for a present page, an allowed access and, for a word, an aligned address. -/
theorem walk_eq_some (s : State) (kind : AccessKind) (a : Addr) (word : Bool) (p : Page) :
    walk s kind a word = some p ↔
      pageAt s.pages (a.toNat / 4096) = some p ∧
      (s.mode ∈ s.cfg.permCheckModes → permAllows s.cfg kind p.perm = true) ∧
      (word = true → a.extractLsb' 0 2 = 0#2) := by
  rw [← pageOf_eq]
  unfold walk
  split
  · rename_i h; simp [h]
  · rename_i q h
    rw [h]
    have e : (s.cfg.permCheckModes.contains s.mode && !permAllows s.cfg kind q.perm) = true ↔
        ¬ (s.mode ∈ s.cfg.permCheckModes → permAllows s.cfg kind q.perm = true) := by
      simp
    have f : (word && decide (a.extractLsb' 0 2 ≠ 0#2)) = true ↔ ¬ (word = true → a.extractLsb' 0 2 = 0#2) := by
      simp
    rw [if_congr e rfl rfl, if_congr f rfl rfl]
    split
    · rename_i h1
      refine ⟨fun h => by simp at h, fun ⟨h, k, _⟩ => ?_⟩
      cases h; exact absurd k h1
    · split
      · rename_i h2
        exact ⟨fun h => by simp at h, fun ⟨_, _, k⟩ => absurd k h2⟩
      · rename_i h1 h2
        refine ⟨fun h => ?_, fun ⟨h, _, _⟩ => h⟩
        cases h
        exact ⟨rfl, not_not.1 h1, not_not.1 h2⟩

/-- The walk looks at the page table, the mode and the parameters only. -/
theorem walk_congr (s t : State) (kind : AccessKind) (a : Addr) (word : Bool) (hp : t.pages = s.pages)
    (hm : t.mode = s.mode) (hc : t.cfg = s.cfg) : walk t kind a word = walk s kind a word := by
  simp only [walk, hp, hm, hc]

theorem AccessEffect.walk {s t : State} (h : AccessEffect s t) (kind : AccessKind) (a : Addr) (word : Bool) :
    Machine.walk t kind a word = Machine.walk s kind a word :=
  walk_congr _ _ _ _ _ h.pages h.mode h.cfg

/-! An access looks at R15 for the mode and the masks and at no register: with other registers, or with another R15 that
gives the same walk and masks, it ends the same way. -/

/-- The state an access leaves, changed by `f`. -/
def Access.onState {α : Type} (f : State → State) (r : Access α) : Access α :=
  match r with
  | .done v t => .done v (f t)
  | .abort t => .abort (f t)
  | .refused r => .refused r

/-- `s` with other registers and another R15. -/
abbrev State.withCore (g : RegBank) (r : Word) (s : State) : State :=
  { s with regs := g, r15 := r }

/-- `r` masks what the R15 of `s` masks. -/
abbrev SameMasks (r : Word) (s : State) : Prop :=
  r.getLsbD 27 = s.r15.getLsbD 27 ∧ r.getLsbD 26 = s.r15.getLsbD 26

theorem interrupt_withCore (g : RegBank) (r : Word) (s : State) (d c : Word) (h : SameMasks r s) :
    (s.withCore g r).interrupt d c = (s.interrupt d c).withCore g r := by
  have e : (s.withCore g r).interruptMask = s.interruptMask := by
    simp only [State.interruptMask, State.flagI, State.flagF, h.1, h.2]
  unfold State.interrupt
  rw [e]
  dsimp only [State.withCore]
  split
  · rfl
  · split <;> rfl

theorem replyInterrupt_withCore (g : RegBank) (r : Word) (s : State) (x : DeviceReply) (h : SameMasks r s) :
    replyInterrupt x (s.withCore g r) = (replyInterrupt x s).withCore g r := by
  unfold replyInterrupt
  split
  · exact interrupt_withCore g r s _ _ h
  · rfl

theorem callDevice_withCore (g : RegBank) (r : Word) (s : State) (call : DeviceCall) (h : SameMasks r s) :
    callDevice call (s.withCore g r) = (callDevice call s).onState (State.withCore g r) := by
  have e1 : (nextReply (s.withCore g r)).1 = (nextReply s).1 := by
    unfold nextReply
    dsimp only [State.withCore]
    split <;> rfl
  have e2 : (nextReply (s.withCore g r)).2 = (nextReply s).2.withCore g r := by
    unfold nextReply
    dsimp only [State.withCore]
    split <;> rfl
  have e3 := replyInterrupt_withCore g r
    { (nextReply s).2 with deviceCalls := call :: (nextReply s).2.deviceCalls } (nextReply s).1
    (by rw [SameMasks, show _ = (nextReply s).2.r15 from rfl, (nextReply_effect s).1.r15]; exact h)
  unfold callDevice
  rw [e1, e2]
  dsimp only [State.withCore] at e3 ⊢
  rw [e3]
  split
  · rfl
  · split <;> rfl

theorem deviceAccess_withCore (g : RegBank) (r : Word) (s : State) (call : DeviceCall) (h : SameMasks r s) :
    deviceAccess call (s.withCore g r) = (deviceAccess call s).onState (State.withCore g r) := by
  unfold deviceAccess
  rw [callDevice_withCore g r s call h]
  cases callDevice call s with
  | done v t => rfl
  | refused x => rfl
  | abort t =>
    simp only [Access.onState, deviceFailed, State.withCore]
    cases t.cfg.devFail <;> rfl

theorem deviceFailed_withCore (g : RegBank) (r : Word) (s : State) :
    deviceFailed (s.withCore g r) = (deviceFailed s).onState (State.withCore g r) := by
  simp only [deviceFailed, State.withCore]
  cases s.cfg.devFail <;> rfl

theorem devRead_withCore (g : RegBank) (r : Word) (s : State) (dev : Nat) (word : Bool) (a : Addr) (h : SameMasks r s) :
    devRead dev word a (s.withCore g r) = (devRead dev word a s).onState (State.withCore g r) := by
  unfold devRead
  split <;> rename_i hd <;> rw [show s.devices[dev]? = _ from hd]
  · exact deviceFailed_withCore g r s
  · dsimp only
    split
    · split
      · exact deviceAccess_withCore g r s _ h
      · exact deviceFailed_withCore g r s
    · split
      · rw [deviceAccess_withCore g r s _ h]
        cases deviceAccess (.readByte dev (pageOffset a)) s <;> rfl
      · exact deviceFailed_withCore g r s

theorem devWrite_withCore (g : RegBank) (r : Word) (s : State) (dev : Nat) (word : Bool) (a : Addr) (v : Word)
    (h : SameMasks r s) :
    devWrite dev word a v (s.withCore g r) = (devWrite dev word a v s).onState (State.withCore g r) := by
  unfold devWrite
  split <;> rename_i hd <;> rw [show s.devices[dev]? = _ from hd]
  · exact deviceFailed_withCore g r s
  · dsimp only
    split
    · split
      · exact deviceAccess_withCore g r s _ h
      · exact deviceFailed_withCore g r s
    · split
      · exact deviceAccess_withCore g r s _ h
      · rfl

theorem markRead_withCore (g : RegBank) (r : Word) (s : State) (a : Addr) :
    markRead a (s.withCore g r) = (markRead a s).withCore g r := by
  simp only [markRead, State.withCore]
  split <;> rfl

theorem markWrite_withCore (g : RegBank) (r : Word) (s : State) (a : Addr) :
    markWrite a (s.withCore g r) = (markWrite a s).withCore g r := by
  simp only [markWrite, State.withCore]
  split <;> rfl

theorem memRead_withCore (g : RegBank) (r : Word) (s : State) (word : Bool) (a : Addr) (h : SameMasks r s)
    (hw : walk (s.withCore g r) .read a word = walk s .read a word) :
    memRead word a (s.withCore g r) = (memRead word a s).onState (State.withCore g r) := by
  unfold memRead
  rw [hw]
  split
  · rfl
  · exact congrArg _ (markRead_withCore g r s a)
  · rename_i p dev _
    rw [devRead_withCore g r s dev word a h]
    cases devRead dev word a s with
    | done v t => exact congrArg _ (markRead_withCore g r t a)
    | abort t => rfl
    | refused x => rfl

theorem memWrite_withCore (g : RegBank) (r : Word) (s : State) (word : Bool) (a : Addr) (v : Word) (h : SameMasks r s)
    (hw : walk (s.withCore g r) .write a word = walk s .write a word) :
    memWrite word a v (s.withCore g r) = (memWrite word a v s).onState (State.withCore g r) := by
  unfold memWrite
  rw [hw]
  split
  · rfl
  · exact congrArg _ (markWrite_withCore g r { s with mem := ramWrite s.cfg.endian s.mem word a v } a)
  · rename_i p dev _
    rw [devWrite_withCore g r s dev word a v h]
    cases devWrite dev word a v s with
    | done u t => exact congrArg _ (markWrite_withCore g r t a)
    | abort t => rfl
    | refused x => rfl

/-- A data write keeps RAM in canonical form. -/
theorem memWrite_wf (word : Bool) (a : Addr) (v : Word) (s : State) (h : Memory.wf s.mem = true) :
    (memWrite word a v s).Leaves fun t => Memory.wf t.mem = true := by
  have k := memWrite_leaves word a v s
  revert k
  cases memWrite word a v s with
  | refused r => exact fun _ => trivial
  | done u t | abort t =>
    rintro ⟨-, hm | ⟨⟨p, hp⟩, hm⟩⟩
    · simpa only [Access.Leaves, hm] using h
    · simp only [Access.Leaves, hm]
      exact ramWrite_wf _ _ _ _ _ h ((walk_eq_some ..).1 hp).2.2

end Sys2Proof.Machine
end

