-- ==== Sys2Proof/Laws/Exec.lean ====
section
/-! SUPPORT. `exec` by instruction shape, and what the shared parts of the meanings do. -/

namespace Sys2Proof.Machine

/-! Conditions. -/

theorem whenPasses_of_pass (c : Cond) (s : State) (o : Host.Outcome State Fault Refusal) (h : s.passes c = true) :
    whenPasses c s o = o := by
  simp [whenPasses, h]

theorem whenPasses_of_fail (c : Cond) (s : State) (o : Host.Outcome State Fault Refusal) (h : s.passes c = false) :
    whenPasses c s o = .next s := by
  simp [whenPasses, h]

/-- An instruction that completes was skipped, or its condition passed. -/
theorem whenPasses_next (c : Cond) (s t : State) (o : Host.Outcome State Fault Refusal)
    (h : whenPasses c s o = .next t) : t = s ∨ (s.passes c = true ∧ o = .next t) := by
  unfold whenPasses at h
  split at h
  · exact .inr ⟨‹_›, h⟩
  · cases h; exact .inl rfl

/-! The shapes that share one meaning. -/

theorem exec_dpImm (op : DpOp) (c : Cond) (sf : Bool) (rn rd : RegNum) (rot : BitVec 4) (imm8 : BitVec 8) (s : State) :
    exec (.dpImm op c sf rn rd rot imm8) s = whenPasses c s (dpOutcome op sf rn rd (op2Imm rot imm8 s) s) := by
  cases op <;> rfl

theorem exec_dpRsi (op : DpOp) (c : Cond) (sf : Bool) (rn rd : RegNum) (shamt : BitVec 5) (sh : ShiftType) (rm : RegNum)
    (s : State) :
    exec (.dpRsi op c sf rn rd shamt sh rm) s =
      whenPasses c s (dpOutcome op sf rn rd (op2Rsi shamt sh rm s) s) := by
  cases op <;> rfl

theorem exec_dpRsr (op : DpOp) (c : Cond) (sf : Bool) (rn rd rs : RegNum) (sh : ShiftType) (rm : RegNum) (s : State) :
    exec (.dpRsr op c sf rn rd rs sh rm) s = whenPasses c s (dpOutcome op sf rn rd (op2Rsr rs sh rm s) s) := by
  cases op <;> rfl

theorem exec_sdtImm (load byte : Bool) (c : Cond) (pf uf wf : Bool) (rn rd : RegNum) (imm12 : BitVec 12) (s : State) :
    exec (.sdtImm load byte c pf uf wf rn rd imm12) s =
      whenPasses c s (Machine.sdtImm load byte pf uf wf rn rd imm12 s) := by
  cases load <;> cases byte <;> rfl

theorem exec_sdtReg (load byte : Bool) (c : Cond) (pf uf wf : Bool) (rn rd : RegNum) (shamt : BitVec 5) (sh : ShiftType)
    (rm : RegNum) (s : State) :
    exec (.sdtReg load byte c pf uf wf rn rd shamt sh rm) s =
      whenPasses c s (Machine.sdtReg load byte pf uf wf rn rd shamt sh rm s) := by
  cases load <;> cases byte <;> rfl

/-- Every instruction is of one of these shapes. -/
inductive Shape : Instr → Prop where
  | dpImm (op c sf rn rd rot imm8) : Shape (.dpImm op c sf rn rd rot imm8)
  | dpRsi (op c sf rn rd shamt sh rm) : Shape (.dpRsi op c sf rn rd shamt sh rm)
  | dpRsr (op c sf rn rd rs sh rm) : Shape (.dpRsr op c sf rn rd rs sh rm)
  | mul (c sf rd rn rs rm) : Shape (.mul c sf rd rn rs rm)
  | mla (c sf rd rn rs rm) : Shape (.mla c sf rd rn rs rm)
  | swp (c rn rd rm) : Shape (.swp c rn rd rm)
  | swpb (c rn rd rm) : Shape (.swpb c rn rd rm)
  | undefDp (c bits) : Shape (.undefDp c bits)
  | sdtImm (load byte c pf uf wf rn rd imm12) : Shape (.sdtImm load byte c pf uf wf rn rd imm12)
  | sdtReg (load byte c pf uf wf rn rd shamt sh rm) : Shape (.sdtReg load byte c pf uf wf rn rd shamt sh rm)
  | undefSdt (c bits) : Shape (.undefSdt c bits)
  | stm (c pf uf sf wf rn reglist) : Shape (.stm c pf uf sf wf rn reglist)
  | ldm (c pf uf sf wf rn reglist) : Shape (.ldm c pf uf sf wf rn reglist)
  | b (c offset24) : Shape (.b c offset24)
  | bl (c offset24) : Shape (.bl c offset24)
  | stc (c pf uf nf wf rn crd cp offset8) : Shape (.stc c pf uf nf wf rn crd cp offset8)
  | ldc (c pf uf nf wf rn crd cp offset8) : Shape (.ldc c pf uf nf wf rn crd cp offset8)
  | cdp (c op1 crn crd cp op2 crm) : Shape (.cdp c op1 crn crd cp op2 crm)
  | mcr (c op1 crn rd cp op2 crm) : Shape (.mcr c op1 crn rd cp op2 crm)
  | mrc (c op1 crn rd cp op2 crm) : Shape (.mrc c op1 crn rd cp op2 crm)
  | swi (c imm24) : Shape (.swi c imm24)
  | bkpt (c imm24) : Shape (.bkpt c imm24)

theorem shape (i : Instr) : Shape i := by
  cases i with
  | andImm c sf rn rd rot imm8 => exact .dpImm .and ..
  | andRsi c sf rn rd shamt sh rm => exact .dpRsi .and ..
  | andRsr c sf rn rd rs sh rm => exact .dpRsr .and ..
  | eorImm c sf rn rd rot imm8 => exact .dpImm .eor ..
  | eorRsi c sf rn rd shamt sh rm => exact .dpRsi .eor ..
  | eorRsr c sf rn rd rs sh rm => exact .dpRsr .eor ..
  | subImm c sf rn rd rot imm8 => exact .dpImm .sub ..
  | subRsi c sf rn rd shamt sh rm => exact .dpRsi .sub ..
  | subRsr c sf rn rd rs sh rm => exact .dpRsr .sub ..
  | rsbImm c sf rn rd rot imm8 => exact .dpImm .rsb ..
  | rsbRsi c sf rn rd shamt sh rm => exact .dpRsi .rsb ..
  | rsbRsr c sf rn rd rs sh rm => exact .dpRsr .rsb ..
  | addImm c sf rn rd rot imm8 => exact .dpImm .add ..
  | addRsi c sf rn rd shamt sh rm => exact .dpRsi .add ..
  | addRsr c sf rn rd rs sh rm => exact .dpRsr .add ..
  | adcImm c sf rn rd rot imm8 => exact .dpImm .adc ..
  | adcRsi c sf rn rd shamt sh rm => exact .dpRsi .adc ..
  | adcRsr c sf rn rd rs sh rm => exact .dpRsr .adc ..
  | sbcImm c sf rn rd rot imm8 => exact .dpImm .sbc ..
  | sbcRsi c sf rn rd shamt sh rm => exact .dpRsi .sbc ..
  | sbcRsr c sf rn rd rs sh rm => exact .dpRsr .sbc ..
  | rscImm c sf rn rd rot imm8 => exact .dpImm .rsc ..
  | rscRsi c sf rn rd shamt sh rm => exact .dpRsi .rsc ..
  | rscRsr c sf rn rd rs sh rm => exact .dpRsr .rsc ..
  | tstImm c sf rn rd rot imm8 => exact .dpImm .tst ..
  | tstRsi c sf rn rd shamt sh rm => exact .dpRsi .tst ..
  | tstRsr c sf rn rd rs sh rm => exact .dpRsr .tst ..
  | teqImm c sf rn rd rot imm8 => exact .dpImm .teq ..
  | teqRsi c sf rn rd shamt sh rm => exact .dpRsi .teq ..
  | teqRsr c sf rn rd rs sh rm => exact .dpRsr .teq ..
  | cmpImm c sf rn rd rot imm8 => exact .dpImm .cmp ..
  | cmpRsi c sf rn rd shamt sh rm => exact .dpRsi .cmp ..
  | cmpRsr c sf rn rd rs sh rm => exact .dpRsr .cmp ..
  | cmnImm c sf rn rd rot imm8 => exact .dpImm .cmn ..
  | cmnRsi c sf rn rd shamt sh rm => exact .dpRsi .cmn ..
  | cmnRsr c sf rn rd rs sh rm => exact .dpRsr .cmn ..
  | orrImm c sf rn rd rot imm8 => exact .dpImm .orr ..
  | orrRsi c sf rn rd shamt sh rm => exact .dpRsi .orr ..
  | orrRsr c sf rn rd rs sh rm => exact .dpRsr .orr ..
  | movImm c sf rn rd rot imm8 => exact .dpImm .mov ..
  | movRsi c sf rn rd shamt sh rm => exact .dpRsi .mov ..
  | movRsr c sf rn rd rs sh rm => exact .dpRsr .mov ..
  | bicImm c sf rn rd rot imm8 => exact .dpImm .bic ..
  | bicRsi c sf rn rd shamt sh rm => exact .dpRsi .bic ..
  | bicRsr c sf rn rd rs sh rm => exact .dpRsr .bic ..
  | mvnImm c sf rn rd rot imm8 => exact .dpImm .mvn ..
  | mvnRsi c sf rn rd shamt sh rm => exact .dpRsi .mvn ..
  | mvnRsr c sf rn rd rs sh rm => exact .dpRsr .mvn ..
  | mul c sf rd rn rs rm => exact .mul ..
  | mla c sf rd rn rs rm => exact .mla ..
  | swp c rn rd rm => exact .swp ..
  | swpb c rn rd rm => exact .swpb ..
  | undefDp c bits => exact .undefDp ..
  | strImm c pf uf wf rn rd imm12 => exact .sdtImm false false ..
  | strReg c pf uf wf rn rd shamt sh rm => exact .sdtReg false false ..
  | ldrImm c pf uf wf rn rd imm12 => exact .sdtImm true false ..
  | ldrReg c pf uf wf rn rd shamt sh rm => exact .sdtReg true false ..
  | strbImm c pf uf wf rn rd imm12 => exact .sdtImm false true ..
  | strbReg c pf uf wf rn rd shamt sh rm => exact .sdtReg false true ..
  | ldrbImm c pf uf wf rn rd imm12 => exact .sdtImm true true ..
  | ldrbReg c pf uf wf rn rd shamt sh rm => exact .sdtReg true true ..
  | undefSdt c bits => exact .undefSdt ..
  | stm c pf uf sf wf rn reglist => exact .stm ..
  | ldm c pf uf sf wf rn reglist => exact .ldm ..
  | b c offset24 => exact .b ..
  | bl c offset24 => exact .bl ..
  | stc c pf uf nf wf rn crd cp offset8 => exact .stc ..
  | ldc c pf uf nf wf rn crd cp offset8 => exact .ldc ..
  | cdp c op1 crn crd cp op2 crm => exact .cdp ..
  | mcr c op1 crn rd cp op2 crm => exact .mcr ..
  | mrc c op1 crn rd cp op2 crm => exact .mrc ..
  | swi c imm24 => exact .swi ..
  | bkpt c imm24 => exact .bkpt ..

/-! R15 writes. -/

theorem pc_writePc (s : State) (v : Word) (h : v.extractLsb' 0 2 = 0#2) : (s.writePc v).pc = v.setWidth 26 := by
  unfold State.pc State.writePc
  refine r15Pc_r15Full _ _ ?_
  ext i hi
  have := congrArg (fun x => x.getLsbD i) h
  simp only [BitVec.getLsbD_extractLsb', BitVec.getElem_extractLsb', BitVec.getLsbD_setWidth] at *
  have h26 : i < 26 := by omega
  simpa [hi, h26] using this

@[simp] theorem mode_writePc (s : State) (v : Word) : (s.writePc v).mode = s.mode := by
  simp only [State.mode, State.writePc, r15Full_mode]

@[simp] theorem mode_advancePc (s : State) : s.advancePc.mode = s.mode := by
  simp only [State.mode, State.advancePc, r15Full_mode]

theorem pc_advancePc (s : State) : s.advancePc.pc = s.pc + 4#26 := by
  unfold State.advancePc
  exact r15Pc_r15Full _ _ (aligned_add_four _ (r15Pc_aligned _))

theorem instrAddr_advancePc (s : State) : s.advancePc.instrAddr = s.pc := by
  simp [State.instrAddr, pc_advancePc]

theorem instrAddr_add_four (s : State) : s.instrAddr + 4#26 = s.pc := by
  simp [State.instrAddr]

theorem pc_aligned (s : State) : s.pc.extractLsb' 0 2 = 0#2 := r15Pc_aligned _

theorem instrAddr_aligned (s : State) : s.instrAddr.extractLsb' 0 2 = 0#2 := aligned_sub_four _ (pc_aligned s)

/-- The flag-setting write of N, Z, C and V. -/
theorem setNzcv_flags (s : State) (n z c v : Bool) :
    (s.setNzcv n z c v).flagN = n ∧ (s.setNzcv n z c v).flagZ = z ∧ (s.setNzcv n z c v).flagC = c ∧
    (s.setNzcv n z c v).flagV = v := by
  unfold State.flagN State.flagZ State.flagC State.flagV State.setNzcv
  dsimp only
  refine ⟨?_, ?_, ?_, ?_⟩ <;> rw [BitVec.getLsbD_eq_getElem (by omega), nzcv_bits] <;> simp

theorem setNzcv_low (s : State) (n z c v : Bool) :
    (s.setNzcv n z c v).r15.extractLsb' 0 28 = s.r15.extractLsb' 0 28 := by
  unfold State.setNzcv
  ext i hi
  simp only [BitVec.getElem_extractLsb']
  rw [BitVec.getLsbD_eq_getElem (show 0 + i < 32 by omega), nzcv_bits]
  have h1 : ¬ 0 + i = 31 := by omega
  have h2 : ¬ 0 + i = 30 := by omega
  have h3 : ¬ 0 + i = 29 := by omega
  have h4 : ¬ 0 + i = 28 := by omega
  simp only [h1, h2, h3, h4, if_false]

theorem mode_of_low (s t : State) (h : t.r15.extractLsb' 0 28 = s.r15.extractLsb' 0 28) : t.mode = s.mode := by
  have e : t.r15.extractLsb' 0 2 = s.r15.extractLsb' 0 2 := by
    ext i hi
    have := congrArg (fun x => x.getLsbD i) h
    have h28 : i < 28 := by omega
    simpa [BitVec.getLsbD_extractLsb', BitVec.getElem_extractLsb', hi, h28] using this
  simp only [State.mode, e]

/-! Data processing. -/

/-- A data-processing instruction has its effect, unless it is a test operation with S = 0 that `TEST_NOS` refuses. -/
theorem dpOutcome_eq_next (op : DpOp) (sf : Bool) (rn rd : RegNum) (op2 : Word × Bool) (s : State)
    (h : DpOp.isTest op = false ∨ sf = true ∨ s.cfg.testNoS = .noEffect) :
    dpOutcome op sf rn rd op2 s = .next (dpExec op sf rn rd op2 s) := by
  unfold dpOutcome
  rw [if_neg]
  rcases h with h | h | h <;> simp [h]

theorem dpOutcome_next (op : DpOp) (sf : Bool) (rn rd : RegNum) (op2 : Word × Bool) (s t : State)
    (h : dpOutcome op sf rn rd op2 s = .next t) : t = dpExec op sf rn rd op2 s := by
  unfold dpOutcome at h
  split at h
  · cases h
  · cases h; rfl

/-- A data-processing instruction touches registers and R15 only. -/
theorem dpExec_frame (op : DpOp) (sf : Bool) (rn rd : RegNum) (op2 : Word × Bool) (s : State) :
    dpExec op sf rn rd op2 s =
      { s with regs := (dpExec op sf rn rd op2 s).regs, r15 := (dpExec op sf rn rd op2 s).r15 } := by
  have hset : ∀ (v : Word), s.setReg rd v = { s with regs := (s.setReg rd v).regs, r15 := (s.setReg rd v).r15 } := by
    intro v
    unfold State.setReg State.setSlot
    split <;> rfl
  unfold dpExec
  dsimp only
  split
  · split
    · rfl
    · split
      · unfold State.psrWrite; split <;> rfl
      · rfl
  · split
    · split
      · unfold State.writeR15S; split <;> rfl
      · rfl
    · split
      · unfold State.setAluFlags State.setNzcv
        rw [hset]
      · exact hset _

/-! The numbers in memory. -/

theorem toNat_fieldAt {n : Nat} (v : BitVec n) (lo : Nat) (h : n + lo ≤ 32) :
    (fieldAt v lo).toNat = v.toNat * 2 ^ lo := by
  unfold fieldAt
  have hv := v.isLt
  have h1 : 2 ^ n * 2 ^ lo ≤ 2 ^ 32 := by
    rw [← pow_add]; exact Nat.pow_le_pow_right (by norm_num) h
  have h2 : v.toNat * 2 ^ lo < 2 ^ 32 :=
    lt_of_lt_of_le (Nat.mul_lt_mul_of_pos_right hv (by positivity)) h1
  have h3 : v.toNat < 2 ^ 32 := lt_of_le_of_lt (Nat.le_mul_of_pos_right _ (by positivity)) h2
  rw [BitVec.toNat_shiftLeft, BitVec.toNat_setWidth, Nat.mod_eq_of_lt h3, Nat.shiftLeft_eq, Nat.mod_eq_of_lt h2]

theorem toNat_or_of_disjoint {n : Nat} (x y : BitVec n) (h : x &&& y = 0#n) : (x ||| y).toNat = x.toNat + y.toNat := by
  rw [← BitVec.add_eq_or_of_and_eq_zero x y h, BitVec.toNat_add_of_and_eq_zero h]

/-- A little-endian word as a number (20_memory.md R85). -/
theorem toNat_wordOfBytes (b0 b1 b2 b3 : Byte) :
    (wordOfBytes b0 b1 b2 b3).toNat = b0.toNat + 2 ^ 8 * b1.toNat + 2 ^ 16 * b2.toNat + 2 ^ 24 * b3.toNat := by
  have hd : ∀ (x y : Byte) (i j : Nat), i + 8 ≤ j → j + 8 ≤ 32 → fieldAt y j &&& fieldAt x i = 0#32 := by
    intro x y i j h1 h2
    apply BitVec.eq_of_getLsbD_eq
    intro k hk
    simp only [BitVec.getLsbD_and, getLsbD_fieldAt, BitVec.getLsbD_zero]
    by_cases hj : j ≤ k
    · rw [BitVec.getLsbD_of_ge x (k - i) (by omega)]
      simp
    · simp [hj]
  unfold wordOfBytes
  rw [toNat_or_of_disjoint, toNat_or_of_disjoint, toNat_or_of_disjoint, toNat_fieldAt _ _ (by omega),
    toNat_fieldAt _ _ (by omega), toNat_fieldAt _ _ (by omega), toNat_fieldAt _ _ (by omega)]
  · omega
  · exact hd _ _ _ _ (by omega) (by omega)
  · rw [BitVec.and_comm, BitVec.and_or_distrib_left, BitVec.and_comm, hd _ _ _ _ (by omega) (by omega),
      BitVec.and_comm, hd _ _ _ _ (by omega) (by omega)]
    rfl
  · rw [BitVec.and_comm, BitVec.and_or_distrib_left, BitVec.and_or_distrib_left, BitVec.and_comm,
      hd _ _ _ _ (by omega) (by omega), BitVec.and_comm, hd _ _ _ _ (by omega) (by omega), BitVec.and_comm,
      hd _ _ _ _ (by omega) (by omega)]
    rfl

/-! Computed addresses (20_memory.md R81). -/

theorem onBus_iff (a : Word) : onBus a = true ↔ a.toNat < 2 ^ 26 := by
  unfold onBus
  rw [decide_eq_true_iff, ← BitVec.toNat_inj, BitVec.toNat_ushiftRight, Nat.shiftRight_eq_div_pow]
  simp only [addressBits, BitVec.toNat_ofNat]
  omega

theorem toNat_busAddr (a : Word) : (busAddr a).toNat = a.toNat % 2 ^ 26 := by
  simp [busAddr, addressBits]

/-! Accesses to RAM. -/

/-- `watch_hit` after a marked read, and nothing else changed. -/
theorem markRead_eq (a : Addr) (s : State) : markRead a s = { s with watchHit := s.watchHit || maskBit s.wr a } := by
  unfold markRead
  split
  · rename_i h; simp [h]
  · rename_i h; simp [h]

/-- `watch_hit` after a marked write, and nothing else changed. -/
theorem markWrite_eq (a : Addr) (s : State) : markWrite a s = { s with watchHit := s.watchHit || maskBit s.ww a } := by
  unfold markWrite
  split
  · rename_i h; simp [h]
  · rename_i h; simp [h]

theorem memRead_ram (word : Bool) (a : Addr) (s : State) (p : Perm) (h : walk s .read a word = some (.ram p)) :
    memRead word a s = .done (ramRead s.cfg.endian s.mem word a) { s with watchHit := s.watchHit || maskBit s.wr a } := by
  rw [← markRead_eq]
  simp [memRead, h]

theorem memWrite_ram (word : Bool) (a : Addr) (v : Word) (s : State) (p : Perm)
    (h : walk s .write a word = some (.ram p)) :
    memWrite word a v s =
      .done () { s with mem := ramWrite s.cfg.endian s.mem word a v, watchHit := s.watchHit || maskBit s.ww a } := by
  have e := markWrite_eq a { s with mem := ramWrite s.cfg.endian s.mem word a v }
  dsimp only at e
  rw [← e]
  simp [memWrite, h]

theorem memRead_fault (word : Bool) (a : Addr) (s : State) (h : walk s .read a word = none) :
    memRead word a s = .abort s := by
  simp [memRead, h]

theorem memWrite_fault (word : Bool) (a : Addr) (v : Word) (s : State) (h : walk s .write a word = none) :
    memWrite word a v s = .abort s := by
  simp [memWrite, h]

end Sys2Proof.Machine
end

