-- ==== Sys2Proof/Laws/Exceptions.lean ====
section
/-! SUPPORT. What taking an exception does, in full (60_exceptions.md R511). -/

namespace Sys2Proof.Machine

theorem slotOf_link_ne_r15 (m : Mode) : slotOf m 14#4 ≠ .r15 := by
  rw [Ne, slotOf_eq_r15]
  decide

/-- The PC after entry is the vector. -/
theorem r15Pc_entryR15 (e : ExcEntry) (old : Word) (hv : e.vector.extractLsb' 0 2 = 0#2) :
    r15Pc (entryR15 e old) = e.vector := by
  have b0 : e.vector.getLsbD 0 = false := by simpa using congrArg (fun x => x.getLsbD 0) hv
  have b1 : e.vector.getLsbD 1 = false := by simpa using congrArg (fun x => x.getLsbD 1) hv
  ext i hi
  dsimp only [addressBits] at hi
  rw [r15Pc_bits, BitVec.getLsbD_eq_getElem (show i < 32 by omega), entryR15_bits]
  by_cases h : 2 ≤ i
  · have : ¬ i < 2 := by omega
    simp [h, this, hi]
  · have hi2 : i = 0 ∨ i = 1 := by omega
    rcases hi2 with rfl | rfl
    · simpa using b0.symm
    · simpa using b1.symm

theorem enter_pc (k : ExcKind) (link : Addr) (s : State) : (enter k link s).pc = (excEntry k).vector := by
  unfold State.pc
  rw [enter_r15, r15Pc_entryR15]
  cases k <;> decide

/-- The flags after entry: N, Z, C and V kept, I set, F set or kept. -/
theorem enter_flags (k : ExcKind) (link : Addr) (s : State) :
    (enter k link s).flagN = s.flagN ∧ (enter k link s).flagZ = s.flagZ ∧ (enter k link s).flagC = s.flagC ∧
    (enter k link s).flagV = s.flagV ∧ (enter k link s).flagI = true ∧
    (enter k link s).flagF = ((excEntry k).setsF || s.flagF) := by
  have hb : ∀ i (h : i < 32), (enter k link s).r15.getLsbD i = (entryR15 (excEntry k) s.r15)[i] := fun i hi => by
    rw [enter_r15, BitVec.getLsbD_eq_getElem hi]
  refine ⟨?_, ?_, ?_, ?_, ?_, ?_⟩
  · unfold State.flagN; rw [hb _ (by omega), entryR15_bits]; simp
  · unfold State.flagZ; rw [hb _ (by omega), entryR15_bits]; simp
  · unfold State.flagC; rw [hb _ (by omega), entryR15_bits]; simp
  · unfold State.flagV; rw [hb _ (by omega), entryR15_bits]; simp
  · unfold State.flagI; rw [hb _ (by omega), entryR15_bits]; simp
  · unfold State.flagF; rw [hb _ (by omega), entryR15_bits]; simp

/-- Entry changes registers, R15 and the pins only. -/
theorem enter_eq (k : ExcKind) (link : Addr) (s : State) :
    enter k link s =
      { s with
        regs := (enter k link s).regs
        r15 := (enter k link s).r15
        pinIrq := (enter k link s).pinIrq
        pinFiq := (enter k link s).pinFiq } := by
  unfold enter
  dsimp only
  split
  · unfold State.setSlot; split <;> rfl
  · rfl

/-- The link register of the mode entered. -/
theorem enter_link (k : ExcKind) (link : Addr) (s : State) (h : (excEntry k).saves = true) :
    (enter k link s).reg 14#4 = r15Full s.r15 link := by
  unfold State.reg
  rw [enter_mode, getSlot_enter _ _ _ _ (slotOf_link_ne_r15 _)]
  simp [h]

/-! The link of an exception of the executing instruction (60_exceptions.md R501). -/

theorem raiseHere_dataAbort (s : State) : raiseHere .dataAbort s = raise .dataAbort s.instrAddr s := by
  simp [raiseHere, linkOffset]

end Sys2Proof.Machine
end

