-- ==== Sys2Proof/Laws/Effects.lean ====
section
/-! SUPPORT. What the shared parts of the meanings can change, whatever way they end. -/

namespace Sys2Proof.Machine

/-- `t` is `s` but for registers, R15, RAM, `watch_hit`, the pins, the interrupt record, the coprocessor registers, the wait
and the model's record of its devices. -/
abbrev ExecEffect (s t : State) : Prop :=
  t = { s with
    regs := t.regs, r15 := t.r15, mem := t.mem, watchHit := t.watchHit, pinFiq := t.pinFiq, pinIrq := t.pinIrq,
    lastInterrupt := t.lastInterrupt, draws := t.draws, deviceReplies := t.deviceReplies,
    deviceCalls := t.deviceCalls, waiting := t.waiting, status := t.status, crHwmgr := t.crHwmgr,
    crMmu := t.crMmu, crIntctl := t.crIntctl }

namespace ExecEffect

theorem refl (s : State) : ExecEffect s s := rfl

theorem trans {s t u : State} (h : ExecEffect s t) (k : ExecEffect t u) : ExecEffect s u := by
  cases s; cases t; cases u
  simp only [ExecEffect, State.mk.injEq] at *
  simp_all

theorem of_access {s t : State} (h : AccessEffect s t) : ExecEffect s t := by
  cases s; cases t
  simp only [ExecEffect, AccessEffect, State.mk.injEq] at *
  simp_all

theorem of_setReg (s : State) (r : RegNum) (v : Word) : ExecEffect s (s.setReg r v) := by
  unfold State.setReg State.setSlot
  split <;> rfl

theorem of_setUserReg (s : State) (r : RegNum) (v : Word) : ExecEffect s (s.setUserReg r v) := by
  unfold State.setUserReg State.setSlot
  split <;> rfl

theorem of_enter (k : ExcKind) (link : Addr) (s : State) : ExecEffect s (enter k link s) := by
  unfold ExecEffect
  rw [enter_eq]

theorem of_raise (k : ExcKind) (link : Addr) (s : State) : ExecEffect s (raise k link s) :=
  ExecEffect.trans (t := { s with watchHit := false }) rfl (of_enter ..)

end ExecEffect

/-! Single transfers. -/

/-- What the access of a single transfer leaves, from what it leaves of every state it starts in: a T form starts it in
USR and puts R15 back. -/
theorem sdtAccess_leaves {α : Type} (pf wf : Bool) (access : State → Access α) (s : State) (P : State → State → Prop)
    (h : ∀ u, (access u).Leaves fun t => AccessEffect u t ∧ P u t)
    (k : ∀ t, P (inUser s) t → P s { t with r15 := s.r15 }) :
    (sdtAccess pf wf access s).Leaves fun t => AccessEffect s t ∧ P s t := by
  unfold sdtAccess
  split
  · have hu := h (inUser s)
    unfold asUser
    cases hx : access (inUser s) with
    | refused r => trivial
    | done v t | abort t =>
      rw [hx] at hu
      refine ⟨?_, k t hu.2⟩
      have e := hu.1
      cases t; cases s
      simp only [AccessEffect, inUser, State.mk.injEq] at *
      simp_all
  · exact h s

theorem sdtWriteback_effect (pf wf : Bool) (rn : RegNum) (moved : Word) (s : State) :
    ExecEffect s (sdtWriteback pf wf rn moved s) ∧ (sdtWriteback pf wf rn moved s).mem = s.mem := by
  unfold sdtWriteback
  split
  · exact ⟨.of_setReg .., by simp⟩
  · exact ⟨rfl, rfl⟩

theorem sdtAbort_effect (pf wf : Bool) (rn : RegNum) (moved : Word) (s : State) :
    ExecEffect s (sdtAbort pf wf rn moved s) ∧ (sdtAbort pf wf rn moved s).mem = s.mem := by
  unfold sdtAbort
  split
  · exact ⟨(sdtWriteback_effect ..).1.trans (.of_raise ..), (raise_mem ..).trans (sdtWriteback_effect ..).2⟩
  · exact ⟨.of_raise .., raise_mem ..⟩

/-- Under the default of `SDT_ABORT_WRITEBACK` an aborted single transfer only raises the data abort. -/
theorem sdtAbort_default (pf wf : Bool) (rn : RegNum) (moved : Word) (s : State)
    (h : s.cfg.sdtAbortWriteback = false) : sdtAbort pf wf rn moved s = raise .dataAbort s.instrAddr s := by
  simp [sdtAbort, linkOffset, h]

/-! Block transfers. -/

theorem usesUserBank_eq (meaning : BlockS) (load sf : Bool) (reglist : BitVec 16) :
    usesUserBank meaning load sf reglist = (sf && !(load && reglist.getLsbD 15)) := rfl

/-- The loop of STM touches what an access touches: no register and no R15. -/
theorem stmLoop_leaves (ub wf : Bool) (rn : RegNum) (base : Word) :
    ∀ (l : List RegNum) (a : Word) (first : Bool) (s : State),
      (stmLoop ub wf rn base l a first s).Leaves (AccessEffect s) := by
  intro l
  induction l with
  | nil => intro a f s; exact AccessEffect.refl s
  | cons i l ih =>
    intro a f s
    rw [stmLoop]
    have h := memWrite_leaves true (busAddr a) (stmValue ub wf f rn i base s) s
    revert h
    cases memWrite true (busAddr a) (stmValue ub wf f rn i base s) s with
    | refused r => exact fun _ => trivial
    | abort t => exact fun h => h.1
    | done u t =>
      intro h
      have k := ih (a + 4#32) false t
      dsimp only
      revert k
      cases stmLoop ub wf rn base l (a + 4#32) false t with
      | refused r => exact fun _ => trivial
      | abort v | done u v => exact fun k => h.1.trans k

/-- A loaded value written, the meaning of the S bit decided (44_block_transfer.md R346). -/
theorem ldmInto_eq (ub sf : Bool) (i : RegNum) (v : Word) (s : State) :
    ldmInto ub sf i v s =
      if i = 15#4 then (if sf then s.writeR15S v else s.writePc v) else setBlockReg ub i v s := rfl

theorem ldmInto_effect (ub sf : Bool) (i : RegNum) (v : Word) (s : State) :
    ExecEffect s (ldmInto ub sf i v s) ∧ (ldmInto ub sf i v s).mem = s.mem := by
  rw [ldmInto_eq]
  split
  · split
    · unfold State.writeR15S; split <;> exact ⟨rfl, rfl⟩
    · exact ⟨rfl, rfl⟩
  · unfold setBlockReg
    split
    · exact ⟨.of_setUserReg .., by unfold State.setUserReg State.setSlot; split <;> rfl⟩
    · exact ⟨.of_setReg .., by simp⟩

/-- The loop of LDM changes no RAM. -/
theorem ldmLoop_leaves (ub sf : Bool) :
    ∀ (l : List RegNum) (a : Word) (aborted : Bool) (s : State),
      (ldmLoop ub sf l a aborted s).Leaves fun t => ExecEffect s t ∧ t.mem = s.mem := by
  intro l
  induction l with
  | nil => intro a ab s; rw [ldmLoop]; cases ab <;> exact ⟨rfl, rfl⟩
  | cons i l ih =>
    intro a ab s
    have lift : ∀ (s t : State) (x : Access Unit), ExecEffect s t → t.mem = s.mem →
        (x.Leaves fun v => ExecEffect t v ∧ v.mem = t.mem) → x.Leaves fun v => ExecEffect s v ∧ v.mem = s.mem := by
      intro s t x h1 h2 h3
      cases x with
      | refused r => trivial
      | abort v | done u v => exact ⟨h1.trans h3.1, h3.2.trans h2⟩
    rw [ldmLoop]
    split
    · exact ih ..
    · have h := memRead_leaves true (busAddr a) s
      revert h
      cases memRead true (busAddr a) s with
      | refused r => exact fun _ => trivial
      | abort t => exact fun h => lift s t _ (.of_access h.1) h.2 (ih ..)
      | done v t =>
        intro h
        have k := ldmInto_effect ub sf i v t
        exact lift s _ _ ((ExecEffect.of_access h.1).trans k.1) (k.2.trans h.2) (ih ..)

theorem bdtWriteback_effect (uf wf : Bool) (rn : RegNum) (reglist : BitVec 16) (s : State) :
    ExecEffect s (bdtWriteback uf wf rn reglist s) ∧ (bdtWriteback uf wf rn reglist s).mem = s.mem := by
  unfold bdtWriteback
  split
  · exact ⟨.of_setReg .., by simp⟩
  · exact ⟨rfl, rfl⟩

/-! The mapping request. -/

/-- Everything a mapping request can change. -/
theorem hwMapMemory_eq (crn crd crm : CrNum) (s : State) :
    hwMapMemory crn crd crm s =
      { s with
        crHwmgr := (hwMapMemory crn crd crm s).crHwmgr
        pages := (hwMapMemory crn crd crm s).pages
        devices := (hwMapMemory crn crd crm s).devices
        mappings := (hwMapMemory crn crd crm s).mappings
        draws := (hwMapMemory crn crd crm s).draws } := by
  unfold hwMapMemory setHwCr mapMemory State.setCr
  dsimp only
  split
  · rfl
  · split
    · rfl
    · split
      · rfl
      · split <;> rfl

theorem mem_pagesOfRange (i start stop : Nat) :
    i ∈ pagesOfRange start stop ↔ start / 4096 ≤ i ∧ i < stop / 4096 := by
  simp only [pagesOfRange, List.mem_map, List.mem_range, pageBytes, pageBits]
  constructor
  · rintro ⟨a, h, rfl⟩; omega
  · intro h; exact ⟨i - start / 4096, by omega, by omega⟩

theorem pagesOfRange_nodup (start stop : Nat) : (pagesOfRange start stop).Nodup := by
  unfold pagesOfRange
  exact List.nodup_range.map fun a b h => by simpa using h

/-- The page table after a list of pages is claimed. -/
theorem pageAt_claimPages (cfg : Config) (dev : Nat) :
    ∀ (l : List Nat), l.Nodup → ∀ (t : List (Nat × Page)) (i : Nat),
      (i ∈ l → ∃ p, pageAt (l.foldl (claimPage cfg dev) t) i = some (.device p dev)) ∧
      (i ∉ l → pageAt (l.foldl (claimPage cfg dev) t) i = pageAt t i) := by
  intro l
  induction l with
  | nil => intro _ t i; simp
  | cons j l ih =>
    intro hn t i
    simp only [List.nodup_cons] at hn
    have hj : ∀ i, pageAt (claimPage cfg dev t j) i =
        if i = j then
          match pageAt t j with
          | some p => some (.device p.perm dev)
          | none => some (.device cfg.newPagePerm dev)
        else pageAt t i := by
      intro i
      unfold claimPage
      cases pageAt t j <;> exact pageAt_setPage ..
    rw [List.foldl_cons]
    refine ⟨fun h => ?_, fun h => ?_⟩
    · by_cases hl : i ∈ l
      · exact (ih hn.2 _ i).1 hl
      · have hij : i = j := by simpa [hl] using h
        subst hij
        rw [(ih hn.2 _ i).2 hl, hj, if_pos rfl]
        split <;> exact ⟨_, rfl⟩
    · simp at h
      rw [(ih hn.2 _ i).2 h.2, hj, if_neg h.1]

end Sys2Proof.Machine
end

