-- ==== Sys2Proof/Laws/PerInstr.lean ====
section
/-! SUPPORT. A family of facts about every instruction as syntax, one lemma a constructor: the condition field of its word is
its condition (30_encoding.md R141). -/

namespace Sys2Proof.Laws

/-! Bits 31:28 of each format. -/

theorem encodeDpImm_cond (op : DpOp) (c : Cond) (sf : Bool) (rn rd : RegNum) (rot : BitVec 4) (imm8 : BitVec 8) :
    (encodeDpImm op c sf rn rd rot imm8).extractLsb' 28 4 = c.toBits := by
  unfold encodeDpImm
  ext i hi
  simp only [BitVec.getElem_extractLsb', BitVec.getLsbD_or, getLsbD_fieldAt]
  interval_cases i <;> simp

theorem encodeDpRsi_cond (op : DpOp) (c : Cond) (sf : Bool) (rn rd : RegNum) (shamt : BitVec 5) (sh : ShiftType) (rm : RegNum) :
    (encodeDpRsi op c sf rn rd shamt sh rm).extractLsb' 28 4 = c.toBits := by
  unfold encodeDpRsi
  ext i hi
  simp only [BitVec.getElem_extractLsb', BitVec.getLsbD_or, getLsbD_fieldAt]
  interval_cases i <;> simp

theorem encodeDpRsr_cond (op : DpOp) (c : Cond) (sf : Bool) (rn rd rs : RegNum) (sh : ShiftType) (rm : RegNum) :
    (encodeDpRsr op c sf rn rd rs sh rm).extractLsb' 28 4 = c.toBits := by
  unfold encodeDpRsr
  ext i hi
  simp only [BitVec.getElem_extractLsb', BitVec.getLsbD_or, getLsbD_fieldAt]
  interval_cases i <;> simp

theorem encodeMul_cond (acc : Bool) (c : Cond) (sf : Bool) (rd rn rs rm : RegNum) :
    (encodeMul acc c sf rd rn rs rm).extractLsb' 28 4 = c.toBits := by
  unfold encodeMul
  ext i hi
  simp only [BitVec.getElem_extractLsb', BitVec.getLsbD_or, getLsbD_fieldAt]
  interval_cases i <;> simp

theorem encodeSwap_cond (byte : Bool) (c : Cond) (rn rd rm : RegNum) :
    (encodeSwap byte c rn rd rm).extractLsb' 28 4 = c.toBits := by
  unfold encodeSwap
  ext i hi
  simp only [BitVec.getElem_extractLsb', BitVec.getLsbD_or, getLsbD_fieldAt]
  interval_cases i <;> simp

theorem encodeSdtImm_cond (load byte : Bool) (c : Cond) (pf uf wf : Bool) (rn rd : RegNum) (imm12 : BitVec 12) :
    (encodeSdtImm load byte c pf uf wf rn rd imm12).extractLsb' 28 4 = c.toBits := by
  unfold encodeSdtImm
  ext i hi
  simp only [BitVec.getElem_extractLsb', BitVec.getLsbD_or, getLsbD_fieldAt]
  interval_cases i <;> simp

theorem encodeSdtReg_cond (load byte : Bool) (c : Cond) (pf uf wf : Bool) (rn rd : RegNum) (shamt : BitVec 5) (sh : ShiftType)
    (rm : RegNum) :
    (encodeSdtReg load byte c pf uf wf rn rd shamt sh rm).extractLsb' 28 4 = c.toBits := by
  unfold encodeSdtReg
  ext i hi
  simp only [BitVec.getElem_extractLsb', BitVec.getLsbD_or, getLsbD_fieldAt]
  interval_cases i <;> simp

theorem encodeBdt_cond (load : Bool) (c : Cond) (pf uf sf wf : Bool) (rn : RegNum) (reglist : BitVec 16) :
    (encodeBdt load c pf uf sf wf rn reglist).extractLsb' 28 4 = c.toBits := by
  unfold encodeBdt
  ext i hi
  simp only [BitVec.getElem_extractLsb', BitVec.getLsbD_or, getLsbD_fieldAt]
  interval_cases i <;> simp

theorem encodeBranch_cond (link : Bool) (c : Cond) (offset24 : BitVec 24) :
    (encodeBranch link c offset24).extractLsb' 28 4 = c.toBits := by
  unfold encodeBranch
  ext i hi
  simp only [BitVec.getElem_extractLsb', BitVec.getLsbD_or, getLsbD_fieldAt]
  interval_cases i <;> simp

theorem encodeCdt_cond (load : Bool) (c : Cond) (pf uf nf wf : Bool) (rn : RegNum) (crd : CrNum) (cp : BitVec 4)
    (offset8 : BitVec 8) :
    (encodeCdt load c pf uf nf wf rn crd cp offset8).extractLsb' 28 4 = c.toBits := by
  unfold encodeCdt
  ext i hi
  simp only [BitVec.getElem_extractLsb', BitVec.getLsbD_or, getLsbD_fieldAt]
  interval_cases i <;> simp

theorem encodeCdp_cond (c : Cond) (op1 : BitVec 4) (crn crd : CrNum) (cp : BitVec 4) (op2 : BitVec 3) (crm : CrNum) :
    (encodeCdp c op1 crn crd cp op2 crm).extractLsb' 28 4 = c.toBits := by
  unfold encodeCdp
  ext i hi
  simp only [BitVec.getElem_extractLsb', BitVec.getLsbD_or, getLsbD_fieldAt]
  interval_cases i <;> simp

theorem encodeCrt_cond (load : Bool) (c : Cond) (op1 : BitVec 3) (crn : CrNum) (rd : RegNum) (cp : BitVec 4) (op2 : BitVec 3)
    (crm : CrNum) :
    (encodeCrt load c op1 crn rd cp op2 crm).extractLsb' 28 4 = c.toBits := by
  unfold encodeCrt
  ext i hi
  simp only [BitVec.getElem_extractLsb', BitVec.getLsbD_or, getLsbD_fieldAt]
  interval_cases i <;> simp

theorem encodeSwi_cond (c : Cond) (imm24 : BitVec 24) :
    (encodeSwi c imm24).extractLsb' 28 4 = c.toBits := by
  unfold encodeSwi
  ext i hi
  simp only [BitVec.getElem_extractLsb', BitVec.getLsbD_or, getLsbD_fieldAt]
  interval_cases i <;> simp

theorem encodeRaw_cond (c : Cond) (bits : BitVec 28) :
    (encodeRaw c bits).extractLsb' 28 4 = c.toBits := by
  unfold encodeRaw
  ext i hi
  simp only [BitVec.getElem_extractLsb', BitVec.getLsbD_or, getLsbD_fieldAt]
  interval_cases i <;> simp

namespace CondField

/-- The condition of an instruction. -/
def condition (i : Instr) : Cond :=
  match i with
  | .andImm c .. => c
  | .andRsi c .. => c
  | .andRsr c .. => c
  | .eorImm c .. => c
  | .eorRsi c .. => c
  | .eorRsr c .. => c
  | .subImm c .. => c
  | .subRsi c .. => c
  | .subRsr c .. => c
  | .rsbImm c .. => c
  | .rsbRsi c .. => c
  | .rsbRsr c .. => c
  | .addImm c .. => c
  | .addRsi c .. => c
  | .addRsr c .. => c
  | .adcImm c .. => c
  | .adcRsi c .. => c
  | .adcRsr c .. => c
  | .sbcImm c .. => c
  | .sbcRsi c .. => c
  | .sbcRsr c .. => c
  | .rscImm c .. => c
  | .rscRsi c .. => c
  | .rscRsr c .. => c
  | .tstImm c .. => c
  | .tstRsi c .. => c
  | .tstRsr c .. => c
  | .teqImm c .. => c
  | .teqRsi c .. => c
  | .teqRsr c .. => c
  | .cmpImm c .. => c
  | .cmpRsi c .. => c
  | .cmpRsr c .. => c
  | .cmnImm c .. => c
  | .cmnRsi c .. => c
  | .cmnRsr c .. => c
  | .orrImm c .. => c
  | .orrRsi c .. => c
  | .orrRsr c .. => c
  | .movImm c .. => c
  | .movRsi c .. => c
  | .movRsr c .. => c
  | .bicImm c .. => c
  | .bicRsi c .. => c
  | .bicRsr c .. => c
  | .mvnImm c .. => c
  | .mvnRsi c .. => c
  | .mvnRsr c .. => c
  | .mul c .. => c
  | .mla c .. => c
  | .swp c .. => c
  | .swpb c .. => c
  | .undefDp c .. => c
  | .strImm c .. => c
  | .strReg c .. => c
  | .ldrImm c .. => c
  | .ldrReg c .. => c
  | .strbImm c .. => c
  | .strbReg c .. => c
  | .ldrbImm c .. => c
  | .ldrbReg c .. => c
  | .undefSdt c .. => c
  | .stm c .. => c
  | .ldm c .. => c
  | .b c .. => c
  | .bl c .. => c
  | .stc c .. => c
  | .ldc c .. => c
  | .cdp c .. => c
  | .mcr c .. => c
  | .mrc c .. => c
  | .swi c .. => c
  | .bkpt c .. => c

/-- The condition field of the word is the instruction's condition. -/
def Statement (i : Instr) : Prop :=
  (encode i).extractLsb' 28 4 = (condition i).toBits

theorem andImm (c : Cond) (sf : Bool) (rn rd : RegNum) (rot : BitVec 4) (imm8 : BitVec 8) :
    Statement (.andImm c sf rn rd rot imm8) := encodeDpImm_cond ..
theorem andRsi (c : Cond) (sf : Bool) (rn rd : RegNum) (shamt : BitVec 5) (sh : ShiftType) (rm : RegNum) :
    Statement (.andRsi c sf rn rd shamt sh rm) := encodeDpRsi_cond ..
theorem andRsr (c : Cond) (sf : Bool) (rn rd rs : RegNum) (sh : ShiftType) (rm : RegNum) :
    Statement (.andRsr c sf rn rd rs sh rm) := encodeDpRsr_cond ..
theorem eorImm (c : Cond) (sf : Bool) (rn rd : RegNum) (rot : BitVec 4) (imm8 : BitVec 8) :
    Statement (.eorImm c sf rn rd rot imm8) := encodeDpImm_cond ..
theorem eorRsi (c : Cond) (sf : Bool) (rn rd : RegNum) (shamt : BitVec 5) (sh : ShiftType) (rm : RegNum) :
    Statement (.eorRsi c sf rn rd shamt sh rm) := encodeDpRsi_cond ..
theorem eorRsr (c : Cond) (sf : Bool) (rn rd rs : RegNum) (sh : ShiftType) (rm : RegNum) :
    Statement (.eorRsr c sf rn rd rs sh rm) := encodeDpRsr_cond ..
theorem subImm (c : Cond) (sf : Bool) (rn rd : RegNum) (rot : BitVec 4) (imm8 : BitVec 8) :
    Statement (.subImm c sf rn rd rot imm8) := encodeDpImm_cond ..
theorem subRsi (c : Cond) (sf : Bool) (rn rd : RegNum) (shamt : BitVec 5) (sh : ShiftType) (rm : RegNum) :
    Statement (.subRsi c sf rn rd shamt sh rm) := encodeDpRsi_cond ..
theorem subRsr (c : Cond) (sf : Bool) (rn rd rs : RegNum) (sh : ShiftType) (rm : RegNum) :
    Statement (.subRsr c sf rn rd rs sh rm) := encodeDpRsr_cond ..
theorem rsbImm (c : Cond) (sf : Bool) (rn rd : RegNum) (rot : BitVec 4) (imm8 : BitVec 8) :
    Statement (.rsbImm c sf rn rd rot imm8) := encodeDpImm_cond ..
theorem rsbRsi (c : Cond) (sf : Bool) (rn rd : RegNum) (shamt : BitVec 5) (sh : ShiftType) (rm : RegNum) :
    Statement (.rsbRsi c sf rn rd shamt sh rm) := encodeDpRsi_cond ..
theorem rsbRsr (c : Cond) (sf : Bool) (rn rd rs : RegNum) (sh : ShiftType) (rm : RegNum) :
    Statement (.rsbRsr c sf rn rd rs sh rm) := encodeDpRsr_cond ..
theorem addImm (c : Cond) (sf : Bool) (rn rd : RegNum) (rot : BitVec 4) (imm8 : BitVec 8) :
    Statement (.addImm c sf rn rd rot imm8) := encodeDpImm_cond ..
theorem addRsi (c : Cond) (sf : Bool) (rn rd : RegNum) (shamt : BitVec 5) (sh : ShiftType) (rm : RegNum) :
    Statement (.addRsi c sf rn rd shamt sh rm) := encodeDpRsi_cond ..
theorem addRsr (c : Cond) (sf : Bool) (rn rd rs : RegNum) (sh : ShiftType) (rm : RegNum) :
    Statement (.addRsr c sf rn rd rs sh rm) := encodeDpRsr_cond ..
theorem adcImm (c : Cond) (sf : Bool) (rn rd : RegNum) (rot : BitVec 4) (imm8 : BitVec 8) :
    Statement (.adcImm c sf rn rd rot imm8) := encodeDpImm_cond ..
theorem adcRsi (c : Cond) (sf : Bool) (rn rd : RegNum) (shamt : BitVec 5) (sh : ShiftType) (rm : RegNum) :
    Statement (.adcRsi c sf rn rd shamt sh rm) := encodeDpRsi_cond ..
theorem adcRsr (c : Cond) (sf : Bool) (rn rd rs : RegNum) (sh : ShiftType) (rm : RegNum) :
    Statement (.adcRsr c sf rn rd rs sh rm) := encodeDpRsr_cond ..
theorem sbcImm (c : Cond) (sf : Bool) (rn rd : RegNum) (rot : BitVec 4) (imm8 : BitVec 8) :
    Statement (.sbcImm c sf rn rd rot imm8) := encodeDpImm_cond ..
theorem sbcRsi (c : Cond) (sf : Bool) (rn rd : RegNum) (shamt : BitVec 5) (sh : ShiftType) (rm : RegNum) :
    Statement (.sbcRsi c sf rn rd shamt sh rm) := encodeDpRsi_cond ..
theorem sbcRsr (c : Cond) (sf : Bool) (rn rd rs : RegNum) (sh : ShiftType) (rm : RegNum) :
    Statement (.sbcRsr c sf rn rd rs sh rm) := encodeDpRsr_cond ..
theorem rscImm (c : Cond) (sf : Bool) (rn rd : RegNum) (rot : BitVec 4) (imm8 : BitVec 8) :
    Statement (.rscImm c sf rn rd rot imm8) := encodeDpImm_cond ..
theorem rscRsi (c : Cond) (sf : Bool) (rn rd : RegNum) (shamt : BitVec 5) (sh : ShiftType) (rm : RegNum) :
    Statement (.rscRsi c sf rn rd shamt sh rm) := encodeDpRsi_cond ..
theorem rscRsr (c : Cond) (sf : Bool) (rn rd rs : RegNum) (sh : ShiftType) (rm : RegNum) :
    Statement (.rscRsr c sf rn rd rs sh rm) := encodeDpRsr_cond ..
theorem tstImm (c : Cond) (sf : Bool) (rn rd : RegNum) (rot : BitVec 4) (imm8 : BitVec 8) :
    Statement (.tstImm c sf rn rd rot imm8) := encodeDpImm_cond ..
theorem tstRsi (c : Cond) (sf : Bool) (rn rd : RegNum) (shamt : BitVec 5) (sh : ShiftType) (rm : RegNum) :
    Statement (.tstRsi c sf rn rd shamt sh rm) := encodeDpRsi_cond ..
theorem tstRsr (c : Cond) (sf : Bool) (rn rd rs : RegNum) (sh : ShiftType) (rm : RegNum) :
    Statement (.tstRsr c sf rn rd rs sh rm) := encodeDpRsr_cond ..
theorem teqImm (c : Cond) (sf : Bool) (rn rd : RegNum) (rot : BitVec 4) (imm8 : BitVec 8) :
    Statement (.teqImm c sf rn rd rot imm8) := encodeDpImm_cond ..
theorem teqRsi (c : Cond) (sf : Bool) (rn rd : RegNum) (shamt : BitVec 5) (sh : ShiftType) (rm : RegNum) :
    Statement (.teqRsi c sf rn rd shamt sh rm) := encodeDpRsi_cond ..
theorem teqRsr (c : Cond) (sf : Bool) (rn rd rs : RegNum) (sh : ShiftType) (rm : RegNum) :
    Statement (.teqRsr c sf rn rd rs sh rm) := encodeDpRsr_cond ..
theorem cmpImm (c : Cond) (sf : Bool) (rn rd : RegNum) (rot : BitVec 4) (imm8 : BitVec 8) :
    Statement (.cmpImm c sf rn rd rot imm8) := encodeDpImm_cond ..
theorem cmpRsi (c : Cond) (sf : Bool) (rn rd : RegNum) (shamt : BitVec 5) (sh : ShiftType) (rm : RegNum) :
    Statement (.cmpRsi c sf rn rd shamt sh rm) := encodeDpRsi_cond ..
theorem cmpRsr (c : Cond) (sf : Bool) (rn rd rs : RegNum) (sh : ShiftType) (rm : RegNum) :
    Statement (.cmpRsr c sf rn rd rs sh rm) := encodeDpRsr_cond ..
theorem cmnImm (c : Cond) (sf : Bool) (rn rd : RegNum) (rot : BitVec 4) (imm8 : BitVec 8) :
    Statement (.cmnImm c sf rn rd rot imm8) := encodeDpImm_cond ..
theorem cmnRsi (c : Cond) (sf : Bool) (rn rd : RegNum) (shamt : BitVec 5) (sh : ShiftType) (rm : RegNum) :
    Statement (.cmnRsi c sf rn rd shamt sh rm) := encodeDpRsi_cond ..
theorem cmnRsr (c : Cond) (sf : Bool) (rn rd rs : RegNum) (sh : ShiftType) (rm : RegNum) :
    Statement (.cmnRsr c sf rn rd rs sh rm) := encodeDpRsr_cond ..
theorem orrImm (c : Cond) (sf : Bool) (rn rd : RegNum) (rot : BitVec 4) (imm8 : BitVec 8) :
    Statement (.orrImm c sf rn rd rot imm8) := encodeDpImm_cond ..
theorem orrRsi (c : Cond) (sf : Bool) (rn rd : RegNum) (shamt : BitVec 5) (sh : ShiftType) (rm : RegNum) :
    Statement (.orrRsi c sf rn rd shamt sh rm) := encodeDpRsi_cond ..
theorem orrRsr (c : Cond) (sf : Bool) (rn rd rs : RegNum) (sh : ShiftType) (rm : RegNum) :
    Statement (.orrRsr c sf rn rd rs sh rm) := encodeDpRsr_cond ..
theorem movImm (c : Cond) (sf : Bool) (rn rd : RegNum) (rot : BitVec 4) (imm8 : BitVec 8) :
    Statement (.movImm c sf rn rd rot imm8) := encodeDpImm_cond ..
theorem movRsi (c : Cond) (sf : Bool) (rn rd : RegNum) (shamt : BitVec 5) (sh : ShiftType) (rm : RegNum) :
    Statement (.movRsi c sf rn rd shamt sh rm) := encodeDpRsi_cond ..
theorem movRsr (c : Cond) (sf : Bool) (rn rd rs : RegNum) (sh : ShiftType) (rm : RegNum) :
    Statement (.movRsr c sf rn rd rs sh rm) := encodeDpRsr_cond ..
theorem bicImm (c : Cond) (sf : Bool) (rn rd : RegNum) (rot : BitVec 4) (imm8 : BitVec 8) :
    Statement (.bicImm c sf rn rd rot imm8) := encodeDpImm_cond ..
theorem bicRsi (c : Cond) (sf : Bool) (rn rd : RegNum) (shamt : BitVec 5) (sh : ShiftType) (rm : RegNum) :
    Statement (.bicRsi c sf rn rd shamt sh rm) := encodeDpRsi_cond ..
theorem bicRsr (c : Cond) (sf : Bool) (rn rd rs : RegNum) (sh : ShiftType) (rm : RegNum) :
    Statement (.bicRsr c sf rn rd rs sh rm) := encodeDpRsr_cond ..
theorem mvnImm (c : Cond) (sf : Bool) (rn rd : RegNum) (rot : BitVec 4) (imm8 : BitVec 8) :
    Statement (.mvnImm c sf rn rd rot imm8) := encodeDpImm_cond ..
theorem mvnRsi (c : Cond) (sf : Bool) (rn rd : RegNum) (shamt : BitVec 5) (sh : ShiftType) (rm : RegNum) :
    Statement (.mvnRsi c sf rn rd shamt sh rm) := encodeDpRsi_cond ..
theorem mvnRsr (c : Cond) (sf : Bool) (rn rd rs : RegNum) (sh : ShiftType) (rm : RegNum) :
    Statement (.mvnRsr c sf rn rd rs sh rm) := encodeDpRsr_cond ..
theorem mul (c : Cond) (sf : Bool) (rd rn rs rm : RegNum) : Statement (.mul c sf rd rn rs rm) := encodeMul_cond ..
theorem mla (c : Cond) (sf : Bool) (rd rn rs rm : RegNum) : Statement (.mla c sf rd rn rs rm) := encodeMul_cond ..
theorem swp (c : Cond) (rn rd rm : RegNum) : Statement (.swp c rn rd rm) := encodeSwap_cond ..
theorem swpb (c : Cond) (rn rd rm : RegNum) : Statement (.swpb c rn rd rm) := encodeSwap_cond ..
theorem undefDp (c : Cond) (bits : BitVec 28) : Statement (.undefDp c bits) := encodeRaw_cond ..
theorem strImm (c : Cond) (pf uf wf : Bool) (rn rd : RegNum) (imm12 : BitVec 12) :
    Statement (.strImm c pf uf wf rn rd imm12) := encodeSdtImm_cond ..
theorem strReg (c : Cond) (pf uf wf : Bool) (rn rd : RegNum) (shamt : BitVec 5) (sh : ShiftType) (rm : RegNum) :
    Statement (.strReg c pf uf wf rn rd shamt sh rm) := encodeSdtReg_cond ..
theorem ldrImm (c : Cond) (pf uf wf : Bool) (rn rd : RegNum) (imm12 : BitVec 12) :
    Statement (.ldrImm c pf uf wf rn rd imm12) := encodeSdtImm_cond ..
theorem ldrReg (c : Cond) (pf uf wf : Bool) (rn rd : RegNum) (shamt : BitVec 5) (sh : ShiftType) (rm : RegNum) :
    Statement (.ldrReg c pf uf wf rn rd shamt sh rm) := encodeSdtReg_cond ..
theorem strbImm (c : Cond) (pf uf wf : Bool) (rn rd : RegNum) (imm12 : BitVec 12) :
    Statement (.strbImm c pf uf wf rn rd imm12) := encodeSdtImm_cond ..
theorem strbReg (c : Cond) (pf uf wf : Bool) (rn rd : RegNum) (shamt : BitVec 5) (sh : ShiftType) (rm : RegNum) :
    Statement (.strbReg c pf uf wf rn rd shamt sh rm) := encodeSdtReg_cond ..
theorem ldrbImm (c : Cond) (pf uf wf : Bool) (rn rd : RegNum) (imm12 : BitVec 12) :
    Statement (.ldrbImm c pf uf wf rn rd imm12) := encodeSdtImm_cond ..
theorem ldrbReg (c : Cond) (pf uf wf : Bool) (rn rd : RegNum) (shamt : BitVec 5) (sh : ShiftType) (rm : RegNum) :
    Statement (.ldrbReg c pf uf wf rn rd shamt sh rm) := encodeSdtReg_cond ..
theorem undefSdt (c : Cond) (bits : BitVec 28) : Statement (.undefSdt c bits) := encodeRaw_cond ..
theorem stm (c : Cond) (pf uf sf wf : Bool) (rn : RegNum) (reglist : BitVec 16) :
    Statement (.stm c pf uf sf wf rn reglist) := encodeBdt_cond ..
theorem ldm (c : Cond) (pf uf sf wf : Bool) (rn : RegNum) (reglist : BitVec 16) :
    Statement (.ldm c pf uf sf wf rn reglist) := encodeBdt_cond ..
theorem b (c : Cond) (offset24 : BitVec 24) : Statement (.b c offset24) := encodeBranch_cond ..
theorem bl (c : Cond) (offset24 : BitVec 24) : Statement (.bl c offset24) := encodeBranch_cond ..
theorem stc (c : Cond) (pf uf nf wf : Bool) (rn : RegNum) (crd : CrNum) (cp : BitVec 4) (offset8 : BitVec 8) :
    Statement (.stc c pf uf nf wf rn crd cp offset8) := encodeCdt_cond ..
theorem ldc (c : Cond) (pf uf nf wf : Bool) (rn : RegNum) (crd : CrNum) (cp : BitVec 4) (offset8 : BitVec 8) :
    Statement (.ldc c pf uf nf wf rn crd cp offset8) := encodeCdt_cond ..
theorem cdp (c : Cond) (op1 : BitVec 4) (crn crd : CrNum) (cp : BitVec 4) (op2 : BitVec 3) (crm : CrNum) :
    Statement (.cdp c op1 crn crd cp op2 crm) := encodeCdp_cond ..
theorem mcr (c : Cond) (op1 : BitVec 3) (crn : CrNum) (rd : RegNum) (cp : BitVec 4) (op2 : BitVec 3) (crm : CrNum) :
    Statement (.mcr c op1 crn rd cp op2 crm) := encodeCrt_cond ..
theorem mrc (c : Cond) (op1 : BitVec 3) (crn : CrNum) (rd : RegNum) (cp : BitVec 4) (op2 : BitVec 3) (crm : CrNum) :
    Statement (.mrc c op1 crn rd cp op2 crm) := encodeCrt_cond ..
theorem swi (c : Cond) (imm24 : BitVec 24) : Statement (.swi c imm24) := encodeSwi_cond ..
theorem bkpt (c : Cond) (imm24 : BitVec 24) : Statement (.bkpt c imm24) := encodeSwi_cond ..

/-- The family holds of every instruction. -/
theorem all (i : Instr) : Statement i := by
  cases i
  · exact andImm ..
  · exact andRsi ..
  · exact andRsr ..
  · exact eorImm ..
  · exact eorRsi ..
  · exact eorRsr ..
  · exact subImm ..
  · exact subRsi ..
  · exact subRsr ..
  · exact rsbImm ..
  · exact rsbRsi ..
  · exact rsbRsr ..
  · exact addImm ..
  · exact addRsi ..
  · exact addRsr ..
  · exact adcImm ..
  · exact adcRsi ..
  · exact adcRsr ..
  · exact sbcImm ..
  · exact sbcRsi ..
  · exact sbcRsr ..
  · exact rscImm ..
  · exact rscRsi ..
  · exact rscRsr ..
  · exact tstImm ..
  · exact tstRsi ..
  · exact tstRsr ..
  · exact teqImm ..
  · exact teqRsi ..
  · exact teqRsr ..
  · exact cmpImm ..
  · exact cmpRsi ..
  · exact cmpRsr ..
  · exact cmnImm ..
  · exact cmnRsi ..
  · exact cmnRsr ..
  · exact orrImm ..
  · exact orrRsi ..
  · exact orrRsr ..
  · exact movImm ..
  · exact movRsi ..
  · exact movRsr ..
  · exact bicImm ..
  · exact bicRsi ..
  · exact bicRsr ..
  · exact mvnImm ..
  · exact mvnRsi ..
  · exact mvnRsr ..
  · exact mul ..
  · exact mla ..
  · exact swp ..
  · exact swpb ..
  · exact undefDp ..
  · exact strImm ..
  · exact strReg ..
  · exact ldrImm ..
  · exact ldrReg ..
  · exact strbImm ..
  · exact strbReg ..
  · exact ldrbImm ..
  · exact ldrbReg ..
  · exact undefSdt ..
  · exact stm ..
  · exact ldm ..
  · exact b ..
  · exact bl ..
  · exact stc ..
  · exact ldc ..
  · exact cdp ..
  · exact mcr ..
  · exact mrc ..
  · exact swi ..
  · exact bkpt ..

end CondField

/-- The condition read back from the word. -/
theorem cond_of_encode (i : Instr) : Cond.ofBits ((encode i).extractLsb' 28 4) = CondField.condition i := by
  rw [CondField.all i]
  cases CondField.condition i <;> rfl

end Sys2Proof.Laws
end

