-- ==== Sys2Proof/Laws/Step.lean ====
section
/-! SUPPORT. What a step does, case by case (60_exceptions.md R550). -/

namespace Sys2Proof.Machine

/-- With nothing to wait for and nothing pending, a step starts from the state as it is. -/
theorem beginStep_quiet (s : State) (hw : s.waiting = false) (hf : s.fiqPending = false) (hi : s.irqPending = false) :
    beginStep s = { s with status := .ok } := by
  have e : ({ s with waiting := false, status := .ok } : State) = { s with status := .ok } := by rw [← hw]
  unfold beginStep
  rw [e]
  unfold sampleInterrupts
  have h1 : State.fiqPending { s with status := .ok } = false := hf
  have h2 : State.irqPending { s with status := .ok } = false := hi
  rw [h1, h2]
  rfl

/-- With no breakpoint at the PC either, the step is the fetch and what follows it. -/
theorem step_quiet (s : State) (hn : s.initialized = true) (hw : s.waiting = false) (hf : s.fiqPending = false)
    (hi : s.irqPending = false) (hb : maskBit s.bp s.pc = false) :
    step s =
      match fetch s.pc { s with status := .ok } with
      | .refused r => .refused r
      | .abort t => .next (takePrefetchAbort t)
      | .done w t => runWord w t := by
  have hs : s.stalled = false := by simp [State.stalled, hw]
  have hb' : maskBit s.bp (beginStep s).pc = false := by
    rw [beginStep_quiet s hw hf hi]; exact hb
  unfold step
  rw [if_neg (by simp [hn]), if_neg (by simp [hs]), if_neg (by simp [hb']), fetchNext, beginStep_quiet s hw hf hi]
  rfl

/-- A step of a core that is not initialized changes the status only. -/
theorem step_uninitialized (s : State) (h : s.initialized = false) : step s = .next { s with status := .invalidCpuState } := by
  simp [step, h]

/-- A stalled core changes the status only. -/
theorem step_stalled (s : State) (hn : s.initialized = true) (h : s.stalled = true) :
    step s = .next { s with status := .waitForInterrupt } := by
  simp [step, hn, h]

/-- Every way a step can end in a next state. -/
theorem step_next (s t : State) (h : step s = .next t) :
    t = { s with status := .invalidCpuState } ∨
    t = { s with status := .waitForInterrupt } ∨
    t = breakAtPc (beginStep s) ∨
    (∃ u, fetch (beginStep s).pc (beginStep s) = .abort u ∧ t = takePrefetchAbort u) ∨
    (∃ w u v, fetch (beginStep s).pc (beginStep s) = .done w u ∧ exec (decode u.cfg w) u.advancePc = .next v ∧
      t = endStep u.pc v) := by
  unfold step at h
  split at h
  · cases h; exact .inl rfl
  · split at h
    · cases h; exact .inr (.inl rfl)
    · split at h
      · cases h; exact .inr (.inr (.inl rfl))
      · split at h
        · cases h
        · rename_i u hu
          cases h; exact .inr (.inr (.inr (.inl ⟨u, hu, rfl⟩)))
        · rename_i w u hu
          unfold runWord at h
          split at h
          · rename_i v hv
            cases h; exact .inr (.inr (.inr (.inr ⟨w, u, v, hu, hv, rfl⟩)))
          · cases h
          · cases h

end Sys2Proof.Machine
end

