-- ==== Sys2Proof/Tests/Slice0.lean ====
section
/-! SUPPORT. Tests: ill-formed terms, words written out from the encoding tables, single steps from 95_test_vectors.md, and
for every statement with hypotheses a witness that meets them. -/

namespace Sys2Proof.Tests

open Sys2Proof Sys2Proof.Machine

/-! Ill-formed terms are refused. -/

theorem test_wf_undefDp_refused : (Instr.undefDp .al 0x0000091#28).wf Config.std = false := by decide

theorem test_wf_undefSdt_refused : (Instr.undefSdt .al 0x5800000#28).wf Config.std = false := by decide

theorem test_wf_swi_refused : (Instr.swi .al 0x0000BB#24).wf Config.std = false := by decide

theorem test_wf_bkpt_refused : (Instr.bkpt .al 0x0000BC#24).wf Config.std = false := by decide

/-! Words decode to what they stand for. -/

/-- DP-imm, every opcode: cond 001 opcode S Rn Rd rot imm8 (30_encoding.md R151, R164). -/
theorem test_decode_dp_imm :
    decode Config.std 0b00000010000000010010101110100101#32 = .andImm .eq false 1#4 2#4 11#4 0xA5#8 ∧
    decode Config.std 0b00000010001100010010101110100101#32 = .eorImm .eq true 1#4 2#4 11#4 0xA5#8 ∧
    decode Config.std 0b00000010010000010010101110100101#32 = .subImm .eq false 1#4 2#4 11#4 0xA5#8 ∧
    decode Config.std 0b00000010011100010010101110100101#32 = .rsbImm .eq true 1#4 2#4 11#4 0xA5#8 ∧
    decode Config.std 0b00000010100000010010101110100101#32 = .addImm .eq false 1#4 2#4 11#4 0xA5#8 ∧
    decode Config.std 0b00000010101100010010101110100101#32 = .adcImm .eq true 1#4 2#4 11#4 0xA5#8 ∧
    decode Config.std 0b00000010110000010010101110100101#32 = .sbcImm .eq false 1#4 2#4 11#4 0xA5#8 ∧
    decode Config.std 0b00000010111100010010101110100101#32 = .rscImm .eq true 1#4 2#4 11#4 0xA5#8 ∧
    decode Config.std 0b00000011000000010010101110100101#32 = .tstImm .eq false 1#4 2#4 11#4 0xA5#8 ∧
    decode Config.std 0b00000011001100010010101110100101#32 = .teqImm .eq true 1#4 2#4 11#4 0xA5#8 ∧
    decode Config.std 0b00000011010000010010101110100101#32 = .cmpImm .eq false 1#4 2#4 11#4 0xA5#8 ∧
    decode Config.std 0b00000011011100010010101110100101#32 = .cmnImm .eq true 1#4 2#4 11#4 0xA5#8 ∧
    decode Config.std 0b00000011100000010010101110100101#32 = .orrImm .eq false 1#4 2#4 11#4 0xA5#8 ∧
    decode Config.std 0b00000011101100010010101110100101#32 = .movImm .eq true 1#4 2#4 11#4 0xA5#8 ∧
    decode Config.std 0b00000011110000010010101110100101#32 = .bicImm .eq false 1#4 2#4 11#4 0xA5#8 ∧
    decode Config.std 0b00000011111100010010101110100101#32 = .mvnImm .eq true 1#4 2#4 11#4 0xA5#8 := by
  decide

/-- DP-rsi, every opcode and shift type: cond 000 opcode S Rn Rd shamt st 0 Rm (R152, R166). -/
theorem test_decode_dp_rsi :
    decode Config.std 0b00010000000100110100101100001001#32 = .andRsi .ne true 3#4 4#4 22#5 .lsl 9#4 ∧
    decode Config.std 0b00010000001000110100101100101001#32 = .eorRsi .ne false 3#4 4#4 22#5 .lsr 9#4 ∧
    decode Config.std 0b00010000010100110100101101001001#32 = .subRsi .ne true 3#4 4#4 22#5 .asr 9#4 ∧
    decode Config.std 0b00010000011000110100101101101001#32 = .rsbRsi .ne false 3#4 4#4 22#5 .ror 9#4 ∧
    decode Config.std 0b00010000100100110100101100001001#32 = .addRsi .ne true 3#4 4#4 22#5 .lsl 9#4 ∧
    decode Config.std 0b00010000101000110100101100101001#32 = .adcRsi .ne false 3#4 4#4 22#5 .lsr 9#4 ∧
    decode Config.std 0b00010000110100110100101101001001#32 = .sbcRsi .ne true 3#4 4#4 22#5 .asr 9#4 ∧
    decode Config.std 0b00010000111000110100101101101001#32 = .rscRsi .ne false 3#4 4#4 22#5 .ror 9#4 ∧
    decode Config.std 0b00010001000100110100101100001001#32 = .tstRsi .ne true 3#4 4#4 22#5 .lsl 9#4 ∧
    decode Config.std 0b00010001001000110100101100101001#32 = .teqRsi .ne false 3#4 4#4 22#5 .lsr 9#4 ∧
    decode Config.std 0b00010001010100110100101101001001#32 = .cmpRsi .ne true 3#4 4#4 22#5 .asr 9#4 ∧
    decode Config.std 0b00010001011000110100101101101001#32 = .cmnRsi .ne false 3#4 4#4 22#5 .ror 9#4 ∧
    decode Config.std 0b00010001100100110100101100001001#32 = .orrRsi .ne true 3#4 4#4 22#5 .lsl 9#4 ∧
    decode Config.std 0b00010001101000110100101100101001#32 = .movRsi .ne false 3#4 4#4 22#5 .lsr 9#4 ∧
    decode Config.std 0b00010001110100110100101101001001#32 = .bicRsi .ne true 3#4 4#4 22#5 .asr 9#4 ∧
    decode Config.std 0b00010001111000110100101101101001#32 = .mvnRsi .ne false 3#4 4#4 22#5 .ror 9#4 := by
  decide

/-- DP-rsr, every opcode: cond 000 opcode S Rn Rd Rs 0 st 1 Rm (R153). -/
theorem test_decode_dp_rsr :
    decode Config.std 0b11100000000001010110011100011000#32 = .andRsr .al false 5#4 6#4 7#4 .lsl 8#4 ∧
    decode Config.std 0b11100000001101010110011100111000#32 = .eorRsr .al true 5#4 6#4 7#4 .lsr 8#4 ∧
    decode Config.std 0b11100000010001010110011101011000#32 = .subRsr .al false 5#4 6#4 7#4 .asr 8#4 ∧
    decode Config.std 0b11100000011101010110011101111000#32 = .rsbRsr .al true 5#4 6#4 7#4 .ror 8#4 ∧
    decode Config.std 0b11100000100001010110011100011000#32 = .addRsr .al false 5#4 6#4 7#4 .lsl 8#4 ∧
    decode Config.std 0b11100000101101010110011100111000#32 = .adcRsr .al true 5#4 6#4 7#4 .lsr 8#4 ∧
    decode Config.std 0b11100000110001010110011101011000#32 = .sbcRsr .al false 5#4 6#4 7#4 .asr 8#4 ∧
    decode Config.std 0b11100000111101010110011101111000#32 = .rscRsr .al true 5#4 6#4 7#4 .ror 8#4 ∧
    decode Config.std 0b11100001000001010110011100011000#32 = .tstRsr .al false 5#4 6#4 7#4 .lsl 8#4 ∧
    decode Config.std 0b11100001001101010110011100111000#32 = .teqRsr .al true 5#4 6#4 7#4 .lsr 8#4 ∧
    decode Config.std 0b11100001010001010110011101011000#32 = .cmpRsr .al false 5#4 6#4 7#4 .asr 8#4 ∧
    decode Config.std 0b11100001011101010110011101111000#32 = .cmnRsr .al true 5#4 6#4 7#4 .ror 8#4 ∧
    decode Config.std 0b11100001100001010110011100011000#32 = .orrRsr .al false 5#4 6#4 7#4 .lsl 8#4 ∧
    decode Config.std 0b11100001101101010110011100111000#32 = .movRsr .al true 5#4 6#4 7#4 .lsr 8#4 ∧
    decode Config.std 0b11100001110001010110011101011000#32 = .bicRsr .al false 5#4 6#4 7#4 .asr 8#4 ∧
    decode Config.std 0b11100001111101010110011101111000#32 = .mvnRsr .al true 5#4 6#4 7#4 .ror 8#4 := by
  decide

/-- MUL, MLA: cond 000000 A S Rd Rn Rs 1001 Rm; SWP, SWPB: cond 00010 B 00 Rn Rd 0000 1001 Rm (R154, R155). -/
theorem test_decode_multiply_swap :
    decode Config.std 0b00100000000100010010001110010100#32 = .mul .cs true 1#4 2#4 3#4 4#4 ∧
    decode Config.std 0b00110000001000010010001110010100#32 = .mla .cc false 1#4 2#4 3#4 4#4 ∧
    decode Config.std 0b01000001000000010010000010010100#32 = .swp .mi 1#4 2#4 4#4 ∧
    decode Config.std 0b01010001010000010010000010010100#32 = .swpb .pl 1#4 2#4 4#4 := by
  decide

/-- SDT-imm: cond 010 P U B W L Rn Rd imm12; SDT-reg: cond 011 P U B W L Rn Rd shamt st 0 Rm (R156, R157). -/
theorem test_decode_single_transfer :
    decode Config.std 0b01100101001000010010101010111100#32 = .strImm .vs true false true 1#4 2#4 0xABC#12 ∧
    decode Config.std 0b01110110100000010010101011000011#32 = .strReg .vc false true false 1#4 2#4 21#5 .asr 3#4 ∧
    decode Config.std 0b01100101001100010010101010111100#32 = .ldrImm .vs true false true 1#4 2#4 0xABC#12 ∧
    decode Config.std 0b01110110100100010010101011000011#32 = .ldrReg .vc false true false 1#4 2#4 21#5 .asr 3#4 ∧
    decode Config.std 0b01100101011000010010101010111100#32 = .strbImm .vs true false true 1#4 2#4 0xABC#12 ∧
    decode Config.std 0b01110110110000010010101011000011#32 = .strbReg .vc false true false 1#4 2#4 21#5 .asr 3#4 ∧
    decode Config.std 0b01100101011100010010101010111100#32 = .ldrbImm .vs true false true 1#4 2#4 0xABC#12 ∧
    decode Config.std 0b01110110110100010010101011000011#32 = .ldrbReg .vc false true false 1#4 2#4 21#5 .asr 3#4 := by
  decide

/-- BDT: cond 100 P U S W L Rn reglist; B, BL: cond 101 L offset24 (R158, R159). -/
theorem test_decode_block_branch :
    decode Config.std 0b10001001001011010100000000000011#32 = .stm .hi true false false true 13#4 0x4003#16 ∧
    decode Config.std 0b10011000110100101000000000000001#32 = .ldm .ls false true true false 2#4 0x8001#16 ∧
    decode Config.std 0b10101010111111111111111111111110#32 = .b .ge 0xFFFFFE#24 ∧
    decode Config.std 0b10111011000000000000001111111110#32 = .bl .lt 0x3FE#24 := by
  decide

/-- CDT: cond 110 P U N W L Rn CRd cp offset8; CDP: cond 1110 op1 CRn CRd cp op2 0 CRm; MCR, MRC: cond 1110 op1 L CRn Rd cp op2 1
CRm (R160 to R162). -/
theorem test_decode_coprocessor :
    decode Config.std 0b11001101010000010010001101000101#32 = .stc .gt true false true false 1#4 2#4 3#4 0x45#8 ∧
    decode Config.std 0b11011100101100010010001101000101#32 = .ldc .le false true false true 1#4 2#4 3#4 0x45#8 ∧
    decode Config.std 0b11101110100100010010001110100100#32 = .cdp .al 9#4 1#4 2#4 3#4 5#3 4#4 ∧
    decode Config.std 0b11101110101000010010001111010100#32 = .mcr .al 5#3 1#4 2#4 3#4 6#3 4#4 ∧
    decode Config.std 0b11101110101100010010001111010100#32 = .mrc .al 5#3 1#4 2#4 3#4 6#3 4#4 := by
  decide

/-- SWI: cond 1111 imm24, BKPT where imm24 is `BKPT_IMM`; the unallocated words (R163, R170, R173). -/
theorem test_decode_swi_bkpt_undefined :
    decode Config.std 0b11111111000100100011010001010110#32 = .swi .nv 0x123456#24 ∧
    decode Config.std 0b11101111000000000000000010111011#32 = .bkpt .al 0xBB#24 ∧
    decode Config.std 0xE00000B0#32 = .undefDp .al 0x00000B0#28 ∧
    decode Config.std 0xE7F000F0#32 = .undefSdt .al 0x7F000F0#28 := by
  decide

/-- A table word is read as the instruction it stands for, and is what the next step runs. -/
theorem test_decodeTableWord : decodeTableWord 32 0xE3A00001 = some (.movImm .al false 0#4 0#4 0#4 1#8) := by decide

theorem test_decodeBytes_truncated : decodeBytes Config.std [0x01#8, 0x00#8, 0xA0#8] = .error .truncated := by decide

/-! Single steps. The expected results are those of 95_test_vectors.md; its default start state is SVC mode, A = 0x8000. -/

/-- The default state with an R15 word, registers and words of memory. -/
def start (r15 : Nat) (regs : List (RegNum × Nat)) (words : List (Nat × Nat)) : State :=
  let s : State := { State.reset with r15 := BitVec.ofNat 32 r15 }
  let t := regs.foldl (fun s x => s.setReg x.1 (BitVec.ofNat 32 x.2)) s
  { t with mem := words.foldl (fun m x => memSetWord m x.1 (BitVec.ofNat 32 x.2)) t.mem }

/-- R15 of the default start state. -/
def svcR15 : Nat := 0x0C008003

/-- Whether a step with the word `w` at the PC of `s` completes with a state that passes `check`. -/
def ran (w : Nat) (s : State) (check : State → Bool) : Bool :=
  match step { s with mem := memSetWord s.mem s.pc.toNat (BitVec.ofNat 32 w) } with
  | .next t => check t
  | .fault _ => false
  | .refused _ => false

/-- Whether a step with the word `w` at the PC of `s` is refused for the reason `r`. -/
def refuses (w : Nat) (s : State) (r : Refusal) : Bool :=
  match step { s with mem := memSetWord s.mem s.pc.toNat (BitVec.ofNat 32 w) } with
  | .next _ => false
  | .fault _ => false
  | .refused q => decide (q = r)

/-- T-DP-1. -/
theorem test_add_overflow :
    ran 0xE0910002 (start svcR15 [(1, 0x7FFFFFFF), (2, 0x1)] [])
      (fun t => t.reg 0#4 == 0x80000000#32 && t.r15 == 0x9C008007#32) = true := by
  decide

/-- T-DP-2. -/
theorem test_add_carry_zero :
    ran 0xE0910002 (start svcR15 [(1, 0xFFFFFFFF), (2, 0x1)] [])
      (fun t => t.reg 0#4 == 0x0#32 && t.r15 == 0x6C008007#32) = true := by
  decide

/-- T-DP-3. -/
theorem test_sub_no_borrow :
    ran 0xE0510002 (start svcR15 [(1, 0x5), (2, 0x3)] [])
      (fun t => t.reg 0#4 == 0x2#32 && t.r15 == 0x2C008007#32) = true := by
  decide

/-- T-DP-5. -/
theorem test_sub_overflow :
    ran 0xE2510001 (start svcR15 [(1, 0x80000000)] [])
      (fun t => t.reg 0#4 == 0x7FFFFFFF#32 && t.r15 == 0x3C008007#32) = true := by
  decide

/-- T-DP-6. -/
theorem test_rsb :
    ran 0xE2710000 (start svcR15 [(1, 0x1)] [])
      (fun t => t.reg 0#4 == 0xFFFFFFFF#32 && t.r15 == 0x8C008007#32) = true := by
  decide

/-- T-DP-7. -/
theorem test_adc :
    ran 0xE0B10002 (start 0x2C008003 [(1, 0xFFFFFFFE), (2, 0x0)] [])
      (fun t => t.reg 0#4 == 0xFFFFFFFF#32 && t.r15 == 0x8C008007#32) = true := by
  decide

/-- T-DP-8. -/
theorem test_sbc_borrow :
    ran 0xE0D10002 (start svcR15 [(1, 0x5), (2, 0x5)] [])
      (fun t => t.reg 0#4 == 0xFFFFFFFF#32 && t.r15 == 0x8C008007#32) = true := by
  decide

/-- T-DP-9. -/
theorem test_rsc :
    ran 0xE0F10002 (start 0x2C008003 [(1, 0x3), (2, 0x5)] [])
      (fun t => t.reg 0#4 == 0x2#32 && t.r15 == 0x2C008007#32) = true := by
  decide

/-- T-DP-10. -/
theorem test_cmp_equal :
    ran 0xE1510002 (start svcR15 [(1, 0x7), (2, 0x7)] [])
      (fun t => t.reg 0#4 == 0x0#32 && t.r15 == 0x6C008007#32) = true := by
  decide

/-- T-DP-12. -/
theorem test_cmn :
    ran 0xE3710001 (start svcR15 [(1, 0xFFFFFFFF)] [])
      (fun t => t.reg 0#4 == 0x0#32 && t.r15 == 0x6C008007#32) = true := by
  decide

/-- T-DP-13. -/
theorem test_mov_lsr :
    ran 0xE1B000A1 (start svcR15 [(1, 0x3)] [])
      (fun t => t.reg 0#4 == 0x1#32 && t.r15 == 0x2C008007#32) = true := by
  decide

/-- T-DP-14. -/
theorem test_mov_lsl_by_32 :
    ran 0xE1B00211 (start svcR15 [(1, 0x1), (2, 0x20)] [])
      (fun t => t.reg 0#4 == 0x0#32 && t.r15 == 0x6C008007#32) = true := by
  decide

/-- T-DP-17. -/
theorem test_and_keeps_v :
    ran 0xE0110002 (start 0x3C008003 [(1, 0xF0), (2, 0xF)] [])
      (fun t => t.reg 0#4 == 0x0#32 && t.r15 == 0x7C008007#32) = true := by
  decide

/-- T-DP-18. -/
theorem test_eor :
    ran 0xE0210002 (start svcR15 [(1, 0xFF00FF00), (2, 0xFF00FF0)] [])
      (fun t => t.reg 0#4 == 0xF0F0F0F0#32 && t.r15 == 0x0C008007#32) = true := by
  decide

/-- T-DP-19. -/
theorem test_orr_rotated :
    ran 0xE38104FF (start svcR15 [(1, 0x1)] [])
      (fun t => t.reg 0#4 == 0xFF000001#32 && t.r15 == 0x0C008007#32) = true := by
  decide

/-- T-DP-20. -/
theorem test_bic :
    ran 0xE3C10003 (start svcR15 [(1, 0x1003)] [])
      (fun t => t.reg 0#4 == 0x1000#32 && t.r15 == 0x0C008007#32) = true := by
  decide

/-- T-DP-21. -/
theorem test_mvn :
    ran 0xE3F00000 (start svcR15 [] [])
      (fun t => t.reg 0#4 == 0xFFFFFFFF#32 && t.r15 == 0x8C008007#32) = true := by
  decide

/-- T-DP-22. -/
theorem test_tst_zero :
    ran 0xE3110001 (start svcR15 [(1, 0x2)] [])
      (fun t => t.reg 0#4 == 0x0#32 && t.r15 == 0x4C008007#32) = true := by
  decide

/-- T-DP-23. -/
theorem test_teq_equal :
    ran 0xE1310002 (start svcR15 [(1, 0x5), (2, 0x5)] [])
      (fun t => t.reg 0#4 == 0x0#32 && t.r15 == 0x4C008007#32) = true := by
  decide

/-- T-DP-30. -/
theorem test_teq_psr_write :
    ran 0xE33FF000 (start 0xFC008003 [] [])
      (fun t => t.r15 == 0x00008004#32) = true := by
  decide

/-- T-DP-27. -/
theorem test_mov_pc :
    ran 0xE1A0F000 (start svcR15 [(0, 0xF0005003)] [])
      (fun t => t.r15 == 0x0C005003#32) = true := by
  decide

/-- T-DP-29. -/
theorem test_movs_pc_user :
    ran 0xE1B0F00E (start 0x00008000 [(14, 0xFC009003)] [])
      (fun t => t.r15 == 0xF0009000#32) = true := by
  decide

/-- T-MUL-1. -/
theorem test_mul_wraps :
    ran 0xE0000291 (start svcR15 [(1, 0xFFFFFFFF), (2, 0xFFFFFFFF)] [])
      (fun t => t.reg 0#4 == 0x1#32 && t.r15 == 0x0C008007#32) = true := by
  decide

/-- T-MUL-4. -/
theorem test_mla :
    ran 0xE0203291 (start svcR15 [(1, 0x80000000), (2, 0x2), (3, 0x5)] [])
      (fun t => t.reg 0#4 == 0x5#32 && t.r15 == 0x0C008007#32) = true := by
  decide

/-- T-MUL-6. -/
theorem test_mul_rd_eq_rm_refused : refuses 0xE0000190 (start svcR15 [] []) .multiplyRdEqRm = true := by decide

/-- T-SWP-2. -/
theorem test_swp_same_register :
    ran 0xE1012092 (start svcR15 [(1, 0x1000), (2, 0x11223344)] [(0x1000, 0xAABBCCDD)])
      (fun t => t.reg 2#4 == 0xAABBCCDD#32 && memWord t.mem 0x1000 == 0x11223344#32) = true := by
  decide

/-- T-SWP-3. -/
theorem test_swpb_top_lane :
    ran 0xE1410092 (start svcR15 [(1, 0x1003), (2, 0xEE)] [(0x1000, 0xAABBCCDD)])
      (fun t => t.reg 0#4 == 0xAA#32 && memWord t.mem 0x1000 == 0xEEBBCCDD#32) = true := by
  decide

/-- T-SWP-5. -/
theorem test_swp_address_exception :
    ran 0xE1010092 (start svcR15 [(1, 0x4000000)] [])
      (fun t => t.reg 14#4 == 0xC008003#32 && t.r15 == 0x0C000017#32) = true := by
  decide

/-- T-SDT-1. -/
theorem test_ldr_pre_writeback :
    ran 0xE5B10008 (start svcR15 [(1, 0x1000)] [(0x1008, 0xCAFEF00D)])
      (fun t => t.reg 0#4 == 0xCAFEF00D#32 && t.reg 1#4 == 0x1008#32) = true := by
  decide

/-- T-SDT-4. -/
theorem test_ldr_scaled_register :
    ran 0xE7910102 (start svcR15 [(1, 0x1000), (2, 0x3)] [(0x100C, 0x77)])
      (fun t => t.reg 0#4 == 0x77#32 && t.reg 1#4 == 0x1000#32) = true := by
  decide

/-- T-SDT-11. -/
theorem test_ldr_misaligned_aborts :
    ran 0xE5B10002 (start svcR15 [(1, 0x1000)] [])
      (fun t => t.reg 0#4 == 0x0#32 && t.reg 1#4 == 0x1000#32 && t.reg 14#4 == 0xC008003#32 && t.r15 == 0x0C000013#32) = true := by
  decide

/-- T-SDT-7. -/
theorem test_ldrb_zero_extends :
    ran 0xE5D10003 (start svcR15 [(1, 0x1000)] [(0x1000, 0x80FFFFFF)])
      (fun t => t.reg 0#4 == 0x80#32) = true := by
  decide

/-- 43_single_transfer.md R312. -/
theorem test_ldrb_register :
    ran 0xE7F10102 (start svcR15 [(1, 0x1000), (2, 0x1)] [(0x1004, 0xA5)])
      (fun t => t.reg 0#4 == 0xA5#32 && t.reg 1#4 == 0x1004#32) = true := by
  decide

/-- 43_single_transfer.md R311. -/
theorem test_str_post_down :
    ran 0xE4010004 (start svcR15 [(0, 0x11223344), (1, 0x1000)] [])
      (fun t => t.reg 1#4 == 0xFFC#32 && memWord t.mem 0x1000 == 0x11223344#32) = true := by
  decide

/-- T-SDT-9. -/
theorem test_str_pc_value :
    ran 0xE581F000 (start 0x8C008003 [(1, 0x1000)] [])
      (fun t => memWord t.mem 0x1000 == 0x8C00800B#32) = true := by
  decide

/-- T-SDT-8. -/
theorem test_strb_lane :
    ran 0xE5C12002 (start svcR15 [(1, 0x1000), (2, 0x123456AB)] [])
      (fun t => memWord t.mem 0x1000 == 0xAB0000#32) = true := by
  decide

/-- T-SDT-13. -/
theorem test_ldr_t_form_refused : refuses 0xE4B10000 (start svcR15 [] []) .transferTForm = true := by decide

/-- T-BDT-1. -/
theorem test_stm_push :
    ran 0xE92D4003 (start svcR15 [(13, 0x2000), (0, 0x1), (1, 0x2), (14, 0x3)] [])
      (fun t => t.reg 13#4 == 0x1FF4#32 && memWord t.mem 0x1FF4 == 0x1#32 && memWord t.mem 0x1FF8 == 0x2#32 && memWord t.mem 0x1FFC == 0x3#32) = true := by
  decide

/-- T-BDT-6. -/
theorem test_stm_base_not_first :
    ran 0xE8A10003 (start svcR15 [(0, 0x7), (1, 0x1000)] [])
      (fun t => t.reg 1#4 == 0x1008#32 && memWord t.mem 0x1000 == 0x7#32 && memWord t.mem 0x1004 == 0x1008#32) = true := by
  decide

/-- T-BDT-2. -/
theorem test_ldm_pop :
    ran 0xE8BD4003 (start svcR15 [(13, 0x1FF4)] [(0x1FF4, 0x1), (0x1FF8, 0x2), (0x1FFC, 0x3)])
      (fun t => t.reg 0#4 == 0x1#32 && t.reg 1#4 == 0x2#32 && t.reg 14#4 == 0x3#32 && t.reg 13#4 == 0x2000#32) = true := by
  decide

/-- T-BDT-10. -/
theorem test_ldm_r15_s :
    ran 0xE8D08000 (start svcR15 [(0, 0x1000)] [(0x1000, 0xF0003000)])
      (fun t => t.r15 == 0xF0003000#32) = true := by
  decide

/-- T-BDT-13. -/
theorem test_ldm_empty_refused : refuses 0xE8900000 (start svcR15 [] []) .blockEmptyList = true := by decide

/-- T-BR-5. -/
theorem test_b_backward_wraps :
    ran 0xEAFFFFFC (start 0x0C000003 [] [])
      (fun t => t.r15 == 0x0FFFFFFB#32) = true := by
  decide

/-- T-BR-4. -/
theorem test_bl_link :
    ran 0xEB0000FE (start 0x2C008003 [] [])
      (fun t => t.reg 14#4 == 0x2C008007#32 && t.r15 == 0x2C008403#32) = true := by
  decide

/-- T-SWI-3. -/
theorem test_swi_user :
    ran 0xEF123456 (start 0x00008000 [] [])
      (fun t => t.reg 14#4 == 0x8004#32 && t.r15 == 0x0800000B#32) = true := by
  decide

/-- 46_swi_coprocessor.md R401; 60_exceptions.md R542. -/
theorem test_bkpt_bounded :
    ran 0xEF0000BB (start svcR15 [] [])
      (fun t => t.r15 == 0x0C008003#32 && t.status == .breakpointHit) = true := by
  decide

/-- T-UND: the word 0xE7F000F0 in USR mode. -/
theorem test_undefSdt :
    ran 0xE7F000F0 (start 0x00008000 [] [])
      (fun t => t.reg 14#4 == 0x8004#32 && t.r15 == 0x08000007#32) = true := by
  decide

/-- T-UND: the word 0xE00000B0 in USR mode. -/
theorem test_undefDp :
    ran 0xE00000B0 (start 0x00008000 [] [])
      (fun t => t.reg 14#4 == 0x8004#32 && t.r15 == 0x08000007#32) = true := by
  decide

/-- T-UND: the word 0xED900100 in USR mode. -/
theorem test_ldc :
    ran 0xED900100 (start 0x00008000 [] [])
      (fun t => t.reg 14#4 == 0x8004#32 && t.r15 == 0x08000007#32) = true := by
  decide

/-- 46_swi_coprocessor.md R414: STC as LDC. -/
theorem test_stc :
    ran 0xED800100 (start 0x00008000 [] [])
      (fun t => t.reg 14#4 == 0x8004#32 && t.r15 == 0x08000007#32) = true := by
  decide

/-- T-CP-1. -/
theorem test_mcr :
    ran 0xEE010210 (start svcR15 [(0, 0x5)] [])
      (fun t => t.cr .hwmgr 1#4 == 5#32) = true := by
  decide

/-- T-CP-2. -/
theorem test_mrc :
    ran 0xEE112210 ((start svcR15 [] []).setCr .hwmgr 1#4 5#32)
      (fun t => t.reg 2#4 == 0x5#32) = true := by
  decide

/-- T-CP-4. -/
theorem test_mrc_unrecognised :
    ran 0xEE112510 (start svcR15 [(2, 0x9)] [])
      (fun t => t.reg 2#4 == 0x9#32 && t.r15 == 0x0C008007#32) = true := by
  decide

/-- T-CP-6 with no device. -/
theorem test_cdp_device_count :
    ran 0xEE003200 (start svcR15 [] [])
      (fun t => t.cr .hwmgr 3#4 == 0#32) = true := by
  decide

/-- T-CP-7. -/
theorem test_cdp_wait_masked :
    ran 0xEE400200 (start svcR15 [] [])
      (fun t => t.waiting == false) = true := by
  decide

/-- T-DP-35. -/
theorem test_failed_condition :
    ran 0x00110002 (start svcR15 [(1, 0x1), (2, 0x1)] [])
      (fun t => t.reg 0#4 == 0x0#32 && t.r15 == 0x0C008007#32) = true := by
  decide

/-- T-INT-1: an interrupt is taken before the instruction at 0x18, which runs in the same step. -/
theorem test_irq_entry :
    ran 0xE3A00001 ((start 0x20008000 [] [(0x18, 0xE3A00001)]).interrupt 7#32 0x42#32)
      (fun t => t.getSlot (.irq 1) == 0x20008000#32 && t.r15 == 0x2800001E#32 && t.pinIrq == false) = true := by
  decide

/-- T-RST: from reset, the word placed is the first instruction run, at vector 0 (70_reset_and_hazards.md R602). -/
theorem test_withFetchWord :
    (match step (State.reset.withFetchWord 32 0xE3A01005) with
    | .next t => t.reg 1#4 == 5#32 && t.pc == 4#26
    | .fault _ => false
    | .refused _ => false) = true := by
  decide

/-- 40_data_processing.md R215: the other value of `TEST_NOS`. -/
theorem test_tst_without_s_refused :
    refuses 0xE1010002 { start svcR15 [] [] with cfg := { Config.std with testNoS := .refuse } } .testWithoutS = true := by
  decide

/-- 92_eei_decisions.md D16: the other value of `UNDEF_OUTCOME`, the host status unknown-opcode. -/
theorem test_undefSdt_unknownOpcode :
    ran 0xE7F000F0 { start svcR15 [] [] with cfg := { Config.std with undefOutcome := .unknownOpcode } }
      (fun t => t.status == .unknownOpcode && t.r15 == 0x0C008007#32) = true := by
  decide

/-- 20_memory.md R126: a file one byte under the minimum is an error; the minimum, one section of 0x24 bytes, is loaded. -/
theorem test_load_rom_minimum :
    let header : List Byte := [0#8, 0#8, 0#8, 0x24#8]
    (hostLoadRom (header ++ List.replicate 0x23 0xAB#8) (start svcR15 [] [])).1 = Config.std.romErrorStatus ∧
    (hostLoadRom (header ++ List.replicate 0x24 0xAB#8) (start svcR15 [] [])).1 = .ok ∧
    memByte (hostLoadRom (header ++ List.replicate 0x24 0xAB#8) (start svcR15 [] [])).2.mem
      (Config.std.bootRomBase + 0x23) = 0xAB#8 := by
  decide

/-! Witnesses: for each statement with hypotheses, states and operands that meet them, clause by clause. -/

/-- Every right. -/
def allRights : Perm := ⟨true, true, true⟩

/-- The default state, with addresses in R1 to R5. RAM is below 0x10000. -/
def svc : State := start svcR15 [(1, 0x1000), (2, 0x4000000), (3, 0x10000), (4, 0xFFFC), (5, 0x1002)] []

/-- The same in USR mode with interrupts enabled. -/
def usr : State := start 0x00008000 [(1, 0x1000), (2, 0x4000000), (3, 0x10000), (4, 0xFFFC), (5, 0x1002)] []

/-- USR mode, with the page of 0x1000 readable and not writable. -/
def usrReadOnly : State := { usr with pages := setPage usr.pages 1 (.ram ⟨true, false, true⟩) }

/-- USR mode, with no right on the page of 0x1000. -/
def usrNoRights : State := { usr with pages := setPage usr.pages 1 (.ram ⟨false, false, false⟩) }

/-- The default state under the alternatives of the parameters that have one. -/
def alternative : State :=
  { svc with cfg := { svc.cfg with
      testNoS := .refuse, tForms := .userAccess, devFail := .refuse, undefOutcome := .unknownOpcode,
      cdtOutcome := .unknownOpcode } }

/-- A device with the callbacks given. -/
def device (word byte operation : Bool) : Device := ⟨9, 0, word, word, byte, byte, operation, none⟩

/-- A reply of a device. -/
def reply (fails : Bool) : DeviceReply := ⟨0x1234, fails, none, false⟩

/-- The default state with one device on the page of 0x1000. -/
def withDevice (word byte fails : Bool) : State :=
  { svc with
    devices := [device word byte word]
    pages := setPage svc.pages 1 (.device allRights 0)
    deviceReplies := [reply fails] }

theorem witness_DecodeEncode :
    (Instr.bkpt .al 0xBB#24).wf Config.std = true ∧ (Instr.swi .nv 0xFFFFFF#24).wf Config.std = true ∧
    (Instr.undefDp .al 0x00000B0#28).wf Config.std = true ∧ (Instr.undefSdt .al 0x7F000F0#28).wf Config.std = true := by
  decide

theorem witness_FailedConditionSkips :
    svc.passes (condOf (.b .eq 0#24)) = false ∧ condOf (.b .nv 0xFFFFFF#24) = .nv := by decide

theorem witness_Fetches : Fetches svc ∧ Fetches usr := by
  unfold Fetches
  decide

/-- A fetch from RAM, whose instruction answers a next state. -/
theorem witness_StepRunsDecoded :
    Fetches usr ∧ pageAt usr.pages (usr.pc.toNat / 4096) = some (.ram allRights) ∧
    (usr.mode ∈ usr.cfg.permCheckModes → permAllows usr.cfg .fetch allRights = true) ∧
    (∃ (w : Word) (v t : State), fetch usr.pc { usr with status := .ok } = .done w v ∧
      exec (decode usr.cfg w) v.advancePc = .next t ∧ t.watchHit = false) :=
  ⟨witness_Fetches.2, by decide, by decide, _, _, _, rfl, rfl, rfl⟩

/-- A fetch from a device page that answers, with what R550 asks of the state, and an instruction that completes. -/
theorem witness_StepRunsDecoded_device :
    let s : State := { withDevice true true false with r15 := 0x0C001FFF }
    Fetches s ∧ pageAt s.pages (s.pc.toNat / 4096) = some (.device allRights 0) ∧
    (s.mode ∈ s.cfg.permCheckModes → permAllows s.cfg .fetch allRights = true) ∧
    s.devices[0]? = some (device true true true) ∧ (device true true true).readWord = true ∧
    s.deviceReplies = [reply false] ∧ (reply false).reenters = false ∧ (reply false).fails = false ∧
    (∃ (w : Word) (v t : State), fetch s.pc { s with status := .ok } = .done w v ∧
      exec (decode s.cfg w) v.advancePc = .next t ∧ t.watchHit = false) :=
  ⟨by unfold Fetches; decide, rfl, by decide, rfl, rfl, rfl, rfl, rfl, _, _, _, rfl, rfl, rfl⟩

/-- The clauses of a watchpoint hit and of a refusal. -/
theorem witness_StepRunsDecoded_others :
    (∃ t, exec (.ldrImm .al true true false 1#4 0#4 0#12) { svc.advancePc with wr := [0x400] } = .next t ∧
      t.watchHit = true) ∧
    exec (.mul .al false 0#4 0#4 1#4 0#4) svc.advancePc = .refused .multiplyRdEqRm :=
  ⟨⟨_, rfl, by decide⟩, rfl⟩

theorem witness_RegisterBanks : (14#4 : RegNum) ≠ 15#4 ∧ (0#4 : RegNum) ≠ 15#4 ∧ (0#4 : RegNum) ≠ 14#4 := by decide

theorem witness_BarrelShifter :
    (0#5 : BitVec 5) = 0#5 ∧ (31#5 : BitVec 5) ≠ 0#5 ∧ (0#8 : BitVec 8) = 0#8 ∧
    (1 ≤ (1#8 : BitVec 8).toNat ∧ (1#8 : BitVec 8).toNat ≤ 31) ∧
    (1 ≤ (31#8 : BitVec 8).toNat ∧ (31#8 : BitVec 8).toNat ≤ 31) ∧ (32#8 : BitVec 8).toNat = 32 ∧
    32 ≤ (32#8 : BitVec 8).toNat ∧ 32 < (33#8 : BitVec 8).toNat ∧ 32 < (255#8 : BitVec 8).toNat ∧
    (255#8 : BitVec 8).toNat % 32 ≠ 0 ∧ (1 ≤ (224#8 : BitVec 8).toNat ∧ (224#8 : BitVec 8).toNat % 32 = 0) := by
  decide

/-- Of DataProcessingResult, ResultToPc and ResultToR15 (both modes). -/
theorem witness_data_processing :
    svc.passes .al = true ∧ usr.passes .al = true ∧ ¬ IsTest .mvn ∧ (14#4 : RegNum) ≠ 15#4 ∧ svc.mode ≠ .usr ∧
    usr.mode = .usr := by
  unfold IsTest
  decide

theorem witness_ArithmeticFlags : svc.passes .al = true ∧ ¬ IsLogical .cmp ∧ ¬ IsLogical .rsc ∧ (0#4 : RegNum) ≠ 15#4 := by
  unfold IsLogical
  decide

theorem witness_LogicalFlags : svc.passes .al = true ∧ IsLogical .teq ∧ IsLogical .bic ∧ (0#4 : RegNum) ≠ 15#4 := by
  unfold IsLogical
  decide

/-- Of TestOperations and PsrWriteForm (both modes). -/
theorem witness_test_operations :
    svc.passes .al = true ∧ usr.passes .al = true ∧ IsTest .tst ∧ IsTest .cmn ∧ (0#4 : RegNum) ≠ 15#4 ∧
    svc.mode ≠ .usr ∧ usr.mode = .usr ∧ svc.cfg.testNoS = .noEffect ∧ alternative.cfg.testNoS = .refuse ∧
    alternative.passes .al = true := by
  unfold IsTest
  decide

/-- Of Multiply; Rd = Rs may be. -/
theorem witness_Multiply :
    svc.passes .al = true ∧ (0#4 : RegNum) ≠ 15#4 ∧ (14#4 : RegNum) ≠ 15#4 ∧ (1#4 : RegNum) ≠ 15#4 ∧
    (true = true → (0#4 : RegNum) ≠ 15#4) ∧ (0#4 : RegNum) ≠ 1#4 ∧ ((0#4 : RegNum) = 0#4 ∨ (0#4 : RegNum) = 14#4) := by
  decide

/-- The access to 0x1000, and the one to the last word of RAM. -/
theorem witness_RamReadable :
    RamReadable svc false 0x1000#26 ∧ RamReadable svc false 0xFFFC#26 ∧ RamReadable svc true 0xFFFF#26 ∧
    RamReadable usrReadOnly false 0x1000#26 :=
  ⟨⟨allRights, by decide, fun _ => rfl, by decide⟩, ⟨allRights, by decide, fun _ => rfl, by decide⟩,
    ⟨allRights, by decide, fun _ => rfl, by decide⟩, ⟨⟨true, false, true⟩, by decide, fun _ => rfl, by decide⟩⟩

theorem witness_RamWritable :
    RamWritable svc false 0x1000#26 ∧ RamWritable svc false 0xFFFC#26 ∧ RamWritable svc true 0xFFFF#26 :=
  ⟨⟨allRights, by decide, fun _ => rfl, by decide⟩, ⟨allRights, by decide, fun _ => rfl, by decide⟩,
    ⟨allRights, by decide, fun _ => rfl, by decide⟩⟩

/-- The three ways a data access faults: an absent page, a right missing in USR mode, a misaligned word. -/
theorem witness_AccessFaults :
    AccessFaults svc false true 0x10000#26 ∧ AccessFaults svc true true 0x3FFFFFF#26 ∧
    AccessFaults usrNoRights false false 0x1000#26 ∧ AccessFaults usrReadOnly true true 0x1FFF#26 ∧
    AccessFaults svc false false 0x1001#26 ∧ AccessFaults svc true false 0x1003#26 :=
  ⟨.inl (by decide), .inl (by decide), .inr (.inl ⟨.ram ⟨false, false, false⟩, by decide, by decide, by decide⟩),
    .inr (.inl ⟨.ram ⟨true, false, true⟩, by decide, by decide, by decide⟩), .inr (.inr (by decide)), .inr (.inr (by decide))⟩

theorem witness_SwapExchanges :
    svc.passes .al = true ∧ (4#4 : RegNum) ≠ 15#4 ∧ (0#4 : RegNum) ≠ 15#4 ∧ Memory.wf svc.mem = true ∧
    (svc.reg 4#4).toNat < 2 ^ 26 ∧ RamReadable svc false ((svc.reg 4#4).setWidth 26) ∧
    RamWritable svc false ((svc.reg 4#4).setWidth 26) :=
  ⟨by decide, by decide, by decide, by decide, by decide, ⟨allRights, by decide, fun _ => rfl, by decide⟩,
    ⟨allRights, by decide, fun _ => rfl, by decide⟩⟩

/-- The clauses of SwapAborts: R15 as an operand, a misaligned word, a read that faults, a write that faults after the read. -/
theorem witness_SwapAborts :
    svc.passes .al = true ∧ ((0#4 : RegNum) = 15#4 ∨ (15#4 : RegNum) = 15#4 ∨ (0#4 : RegNum) = 15#4) ∧
    (svc.reg 5#4).toNat < 2 ^ 26 ∧ (false = false ∧ ((svc.reg 5#4).setWidth 26 : Addr).toNat % 4 ≠ 0) ∧
    AccessFaults svc false true ((svc.reg 3#4).setWidth 26) ∧
    (∃ old u w, memRead true ((usrReadOnly.reg 1#4).setWidth 26) usrReadOnly = .done old u ∧
      memWrite true ((usrReadOnly.reg 1#4).setWidth 26) (usrReadOnly.reg 0#4) u = .abort w) :=
  ⟨by decide, by decide, by decide, by decide, .inl (by decide), _, _, _, rfl, rfl⟩

/-- A transfer that writes back, pre-indexed, at the last word of RAM, and one that does not write back. -/
theorem witness_LoadFromRam :
    svc.passes .al = true ∧ SdtAllowed true true true 4#4 0#4 (.imm 0#12) ∧
    SdtAllowed true true false 4#4 4#4 (.reg 0#5 .lsl 0#4) ∧ SdtAllowed true false false 4#4 0#4 (.imm 0xFFF#12) ∧
    (0#4 : RegNum) ≠ 15#4 ∧ (sdtAddr true true 4#4 (.imm 0#12) svc).toNat < 2 ^ 26 ∧
    RamReadable svc false ((sdtAddr true true 4#4 (.imm 0#12) svc).setWidth 26) ∧
    RamReadable svc false ((sdtAddr false true 4#4 (.imm 0xFFF#12) svc).setWidth 26) ∧
    WritesBack true true ∧ WritesBack false false ∧ ¬ WritesBack true false := by
  refine ⟨by decide, ?_, ?_, ?_, by decide, by decide, ⟨allRights, by decide, fun _ => rfl, by decide⟩,
    ⟨allRights, by decide, fun _ => rfl, by decide⟩, ?_, ?_, ?_⟩ <;> simp [SdtAllowed, WritesBack]

theorem witness_LoadIntoR15 :
    svc.passes .al = true ∧ SdtAllowed true true true 4#4 15#4 (.imm 0#12) ∧
    SdtAllowed true true false 15#4 15#4 (.imm 0#12) ∧ (sdtAddr true true 15#4 (.imm 0#12) svc).toNat < 2 ^ 26 ∧
    RamReadable svc false ((sdtAddr true true 15#4 (.imm 0#12) svc).setWidth 26) := by
  refine ⟨by decide, ?_, ?_, by decide, ⟨allRights, by decide, fun _ => rfl, by decide⟩⟩ <;>
    simp [SdtAllowed, WritesBack]

/-- The stored register may be the base, or R15. -/
theorem witness_StoreToRam :
    svc.passes .al = true ∧ SdtAllowed false true true 4#4 4#4 (.imm 0#12) ∧
    SdtAllowed false true false 4#4 15#4 (.imm 0#12) ∧ Memory.wf svc.mem = true ∧
    (sdtAddr true true 4#4 (.imm 0#12) svc).toNat < 2 ^ 26 ∧
    RamWritable svc false ((sdtAddr true true 4#4 (.imm 0#12) svc).setWidth 26) := by
  refine ⟨by decide, ?_, ?_, by decide, by decide, ⟨allRights, by decide, fun _ => rfl, by decide⟩⟩ <;>
    simp [SdtAllowed, WritesBack]

/-- R2 is 2^26, the first address above the space. -/
theorem witness_AddressExceptions :
    svc.passes .al = true ∧ SdtAllowed true true false 2#4 0#4 (.imm 0#12) ∧
    2 ^ 26 ≤ (sdtAddr true true 2#4 (.imm 0#12) svc).toNat ∧ (sdtAddr true false 2#4 (.imm 1#12) svc).toNat < 2 ^ 26 ∧
    (2#4 : RegNum) ≠ 15#4 ∧ (0#4 : RegNum) ≠ 15#4 ∧ 2 ^ 26 ≤ (svc.reg 2#4).toNat := by
  refine ⟨by decide, ?_, by decide, by decide, by decide, by decide, by decide⟩
  simp [SdtAllowed, WritesBack]

theorem witness_TransferAborts :
    svc.passes .al = true ∧ SdtAllowed true true true 3#4 0#4 (.imm 0#12) ∧ svc.cfg.sdtAbortWriteback = false ∧
    (sdtAddr true true 3#4 (.imm 0#12) svc).toNat < 2 ^ 26 ∧
    AccessFaults svc (!true) false ((sdtAddr true true 3#4 (.imm 0#12) svc).setWidth 26) ∧
    AccessFaults svc (!false) false ((sdtAddr true true 5#4 (.imm 0#12) svc).setWidth 26) := by
  refine ⟨by decide, ?_, by decide, by decide, .inl (by decide), .inr (.inr (by decide))⟩
  simp [SdtAllowed, WritesBack]

/-- The clauses of DeviceLoad and DeviceStore: a callback that answers, one that fails, and a missing one. -/
theorem witness_device_access (word byte fails : Bool) :
    (withDevice word byte fails).passes .al = true ∧ SdtAllowed true true false 1#4 0#4 (.imm 0#12) ∧
    SdtAllowed false true true 1#4 1#4 (.imm 0#12) ∧
    (sdtAddr true true 1#4 (.imm 0#12) (withDevice word byte fails)).toNat < 2 ^ 26 ∧
    DeviceReadable (withDevice word byte fails) false
      ((sdtAddr true true 1#4 (.imm 0#12) (withDevice word byte fails)).setWidth 26) 0 ∧
    DeviceWritable (withDevice word byte fails) false
      ((sdtAddr true true 1#4 (.imm 0#12) (withDevice word byte fails)).setWidth 26) 0 ∧
    (withDevice word byte fails).devices[0]? = some (device word byte word) ∧
    (withDevice word byte fails).deviceReplies = [reply fails] ∧ (reply fails).reenters = false ∧
    (reply fails).fails = fails ∧ (reply fails).interrupt = none ∧ (device word byte word).readWord = word ∧
    (device word byte word).readByte = byte ∧ (device word byte word).writeWord = word ∧
    (device word byte word).writeByte = byte ∧ (withDevice word byte fails).cfg.sdtAbortWriteback = false ∧
    (withDevice word byte fails).cfg.devFail = .abort := by
  refine ⟨rfl, ?_, ?_, ?_, ⟨allRights, ?_, fun _ => rfl, ?_⟩, ⟨allRights, ?_, fun _ => rfl, ?_⟩, rfl, rfl, rfl, rfl, rfl,
    rfl, rfl, rfl, rfl, rfl, rfl⟩
  · simp [SdtAllowed, WritesBack]
  · simp [SdtAllowed, WritesBack]
  all_goals revert word byte fails; decide

/-- The default state with one device, failing as given, under the alternatives. -/
def alternativeDevice (word fails : Bool) : State :=
  { withDevice word true fails with cfg := alternative.cfg }

/-- The clauses of DeviceLoad and DeviceStore under the alternative of `DEV_FAIL`. -/
theorem witness_device_access_refused (word fails : Bool) :
    (alternativeDevice word fails).passes .al = true ∧ (alternativeDevice word fails).cfg.devFail = .refuse ∧
    (sdtAddr true true 1#4 (.imm 0#12) (alternativeDevice word fails)).toNat < 2 ^ 26 ∧
    DeviceReadable (alternativeDevice word fails) false
      ((sdtAddr true true 1#4 (.imm 0#12) (alternativeDevice word fails)).setWidth 26) 0 ∧
    DeviceWritable (alternativeDevice word fails) false
      ((sdtAddr true true 1#4 (.imm 0#12) (alternativeDevice word fails)).setWidth 26) 0 ∧
    (alternativeDevice word fails).devices[0]? = some (device word true word) ∧
    (alternativeDevice word fails).deviceReplies = [reply fails] := by
  refine ⟨rfl, rfl, ?_, ⟨allRights, ?_, fun _ => rfl, ?_⟩, ⟨allRights, ?_, fun _ => rfl, ?_⟩, rfl, rfl⟩
  all_goals revert word fails; decide

/-- A machine whose device re-enters the core in its next callback. -/
def reentering : State := { withDevice true true false with deviceReplies := [⟨0#32, false, none, true⟩] }

/-- The clauses of DeviceLoad, DeviceStore and DeviceOperation on a callback that re-enters the core. -/
theorem witness_reenters :
    reentering.passes .al = true ∧ reentering.cfg.Wf ∧
    (sdtAddr true true 1#4 (.imm 0#12) reentering).toNat < 2 ^ 26 ∧
    DeviceReadable reentering false ((sdtAddr true true 1#4 (.imm 0#12) reentering).setWidth 26) 0 ∧
    DeviceWritable reentering true ((sdtAddr true true 1#4 (.imm 0#12) reentering).setWidth 26) 0 ∧
    reentering.devices[(reentering.cr .hwmgr 2#4).toNat]? = some (device true true true) ∧
    (device true true true).operation = true ∧ (device true true true).readWord = true ∧
    (device true true true).writeByte = true ∧
    (∃ r : DeviceReply, reentering.deviceReplies = [r] ∧ r.reenters = true) :=
  ⟨rfl, by decide, by decide, ⟨allRights, rfl, fun _ => rfl, by decide⟩, ⟨allRights, rfl, fun _ => rfl, by decide⟩, rfl, rfl,
    rfl, rfl, _, rfl, rfl⟩

/-- The second clauses of SwapExchanges and LoadIntoR15: accesses that do not abort. -/
theorem witness_accesses_done :
    (∃ old u w, memRead true ((svc.reg 4#4).setWidth 26) svc = .done old u ∧
      memWrite true ((svc.reg 4#4).setWidth 26) (svc.reg 0#4) u = .done () w) ∧
    (∃ v u, memRead true ((sdtAddr true true 1#4 (.imm 0#12) (withDevice true true false)).setWidth 26)
      (withDevice true true false) = .done v u) :=
  ⟨⟨_, _, _, rfl, rfl⟩, _, _, rfl⟩

/-- STM R3, a list whose last word is the last of RAM, with write-back; the base is listed and not the first. -/
theorem witness_StoreMultiple :
    svc.passes .al = true ∧ BdtAllowed false false true 3#4 0x800C#16 ∧ Memory.wf svc.mem = true ∧
    (∀ i : Nat, i < 16 → (0x800C#16).getLsbD i = true →
      RamWritable svc false (blockAddr true false 3#4 0x800C#16 i svc)) ∧
    BdtAllowed false true false 3#4 0xFFFF#16 := by
  refine ⟨by decide, by unfold BdtAllowed; decide, by decide, ?_, by unfold BdtAllowed; decide⟩
  intro i hi h
  have h3 : i = 2 ∨ i = 3 ∨ i = 15 := by
    revert h; revert i; decide
  rcases h3 with rfl | rfl | rfl <;> exact ⟨allRights, by decide, fun _ => rfl, by decide⟩

/-- LDM with R15, for each value of the S bit, in SVC and in USR mode. -/
theorem witness_LoadMultiple :
    svc.passes .al = true ∧ usr.passes .al = true ∧ BdtAllowed true false true 1#4 0x8001#16 ∧
    BdtAllowed true true true 1#4 0x8001#16 ∧ BdtAllowed true true false 1#4 0x4001#16 ∧ (0x8001#16).getLsbD 15 = true ∧
    (0x4001#16).getLsbD 15 = false ∧ svc.mode ≠ .usr ∧ usr.mode = .usr ∧
    (∀ i : Nat, i < 16 → (0x8001#16).getLsbD i = true →
      RamReadable svc false (blockAddr false true 1#4 0x8001#16 i svc) ∧
      RamReadable usr false (blockAddr false true 1#4 0x8001#16 i usr)) := by
  refine ⟨by decide, by decide, by unfold BdtAllowed; decide, by unfold BdtAllowed; decide,
    by unfold BdtAllowed; decide, by decide, by decide, by decide, by decide, ?_⟩
  intro i hi h
  have h2 : i = 0 ∨ i = 15 := by
    revert h; revert i; decide
  rcases h2 with rfl | rfl <;>
    exact ⟨⟨allRights, by decide, fun _ => rfl, by decide⟩, ⟨allRights, by decide, fun _ => rfl, by decide⟩⟩

/-- STM R4!, from the last word of RAM on: R0 is stored, R1 faults. -/
theorem witness_StoreMultipleAborts :
    svc.passes .al = true ∧ BdtAllowed false false true 4#4 0x0003#16 ∧ Memory.wf svc.mem = true ∧ 1 < 16 ∧
    (0x0003#16).getLsbD 1 = true ∧ AccessFaults svc true false (blockAddr false true 4#4 0x0003#16 1 svc) ∧
    (∀ i : Nat, i < 1 → (0x0003#16).getLsbD i = true →
      RamWritable svc false (blockAddr false true 4#4 0x0003#16 i svc)) := by
  refine ⟨by decide, by unfold BdtAllowed; decide, by decide, by decide, by decide, .inl (by decide), ?_⟩
  intro i hi h
  obtain rfl : i = 0 := by omega
  exact ⟨allRights, by decide, fun _ => rfl, by decide⟩

/-- LDM R4!, from the last word of RAM on: R0 is loaded, and the word of the register `j` faults, R15 as the only one
among them. -/
theorem witness_LoadMultipleAborts (j : Nat) (hj : j = 14 ∨ j = 15) :
    let reglist : BitVec 16 := if j = 14 then 0x4001#16 else 0x8001#16
    let ok : Nat → Bool := fun i => i == 0
    svc.passes .al = true ∧ BdtAllowed true false true 4#4 reglist ∧ svc.cfg.ldmContinuesAfterAbort = true ∧ j < 16 ∧
    reglist.getLsbD j = true ∧ ok j = false ∧
    (∀ i : Nat, i < 16 → reglist.getLsbD i = true →
      if ok i then RamReadable svc false (blockAddr false true 4#4 reglist i svc)
      else AccessFaults svc false false (blockAddr false true 4#4 reglist i svc)) := by
  rcases hj with rfl | rfl
  · refine ⟨by decide, by unfold BdtAllowed; decide, by decide, by decide, by decide, by decide, ?_⟩
    intro i hi h
    have h2 : i = 0 ∨ i = 14 := by
      revert h; revert i; decide
    rcases h2 with rfl | rfl
    · exact ⟨allRights, by decide, fun _ => rfl, by decide⟩
    · exact .inl (by decide)
  · refine ⟨by decide, by unfold BdtAllowed; decide, by decide, by decide, by decide, by decide, ?_⟩
    intro i hi h
    have h2 : i = 0 ∨ i = 15 := by
      revert h; revert i; decide
    rcases h2 with rfl | rfl
    · exact ⟨allRights, by decide, fun _ => rfl, by decide⟩
    · exact .inl (by decide)

/-! The clauses of the block transfers over any pages: two words on a device page. -/

/-- The device's two replies. -/
def twoReplies (fails : Bool) : State := { withDevice true true false with deviceReplies := [reply false, reply fails] }

/-- The state an access leaves. -/
def left {α : Type} (x : Access α) (s : State) : State :=
  match x with
  | .done _ t => t
  | .abort t => t
  | .refused _ => s

/-- The state before the read of register `i` of `LDM R1, (R0, R1)`. -/
def readChain (fails : Bool) (i : Nat) : State :=
  let s := twoReplies fails
  let t := left (memRead true 0x1000#26 s) s
  if i = 0 then s else if i = 1 then t else left (memRead true 0x1004#26 t) t

/-- The state before the write of register `i` of `STM R1, (R0, R1)`. -/
def writeChain (fails : Bool) (i : Nat) : State :=
  let s := twoReplies fails
  let t := left (memWrite true 0x1000#26 (s.reg 0#4) s) s
  if i = 0 then s else if i = 1 then t else left (memWrite true 0x1004#26 (s.reg 1#4) t) t

theorem witness_block_reads (fails : Bool) :
    (twoReplies fails).passes .al = true ∧ BdtAllowed true false false 1#4 0x0003#16 ∧
    Reads false true 1#4 0x0003#16 (twoReplies fails) (readChain fails) (fun i => !(fails && i == 1)) (fun _ => 0x1234#32) ∧
    (!(true && (1 : Nat) == 1)) = false ∧ (twoReplies fails).cfg.ldmContinuesAfterAbort = true := by
  refine ⟨rfl, by unfold BdtAllowed; decide, ⟨rfl, ?_⟩, rfl, rfl⟩
  intro i hi
  have h : i = 0 ∨ i = 1 ∨ (2 ≤ i ∧ (0x0003#16).getLsbD i = false) := by revert i; decide
  rcases h with rfl | rfl | ⟨h2, h3⟩
  · rw [if_pos ⟨by decide, by omega⟩]
    cases fails <;> rfl
  · rw [if_pos ⟨by decide, by omega⟩]
    cases fails <;> rfl
  · rw [if_neg (by simp [h3])]
    simp only [readChain, show i ≠ 0 by omega, show i ≠ 1 by omega, show i + 1 ≠ 1 by omega, if_false, Nat.add_eq_zero_iff,
      Nat.one_ne_zero, and_false]

theorem witness_block_writes :
    (∀ i : Nat, i < 16 →
      if (0x0003#16).getLsbD i then
        memWrite true (blockAddr false true 1#4 0x0003#16 i (twoReplies false))
          (stmStored true false false 1#4 0x0003#16 (BitVec.ofNat 4 i) (twoReplies false)) (writeChain false i) =
            .done () (writeChain false (i + 1))
      else writeChain false (i + 1) = writeChain false i) ∧
    writeChain false 0 = twoReplies false ∧
    memWrite true (blockAddr false true 1#4 0x0003#16 0 (twoReplies true))
      (stmStored true false false 1#4 0x0003#16 0#4 (twoReplies true)) (writeChain true 0) = .done () (writeChain true 1) ∧
    writeChain true 0 = twoReplies true ∧
    (∃ w : State, memWrite true (blockAddr false true 1#4 0x0003#16 1 (twoReplies true))
      (stmStored true false false 1#4 0x0003#16 1#4 (twoReplies true)) (writeChain true 1) = .abort w) := by
  refine ⟨?_, rfl, rfl, rfl, _, rfl⟩
  intro i hi
  have h : i = 0 ∨ i = 1 ∨ (2 ≤ i ∧ (0x0003#16).getLsbD i = false) := by revert i; decide
  rcases h with rfl | rfl | ⟨h2, h3⟩
  · rfl
  · rfl
  · rw [h3, if_neg (by simp)]
    simp only [writeChain, show i ≠ 0 by omega, show i ≠ 1 by omega, show i + 1 ≠ 1 by omega, if_false, Nat.add_eq_zero_iff,
      Nat.one_ne_zero, and_false]

theorem witness_BlockMisaligned :
    svc.passes .al = true ∧ BdtAllowed true false true 5#4 0x0001#16 ∧ BdtAllowed false false false 5#4 0xFFFF#16 ∧
    (svc.readBase 5#4).toNat % 4 ≠ 0 := by
  unfold BdtAllowed
  decide

/-- The clauses of OperandRestrictions, each of their cases, but for those of the T forms that run. -/
theorem witness_OperandRestrictions :
    svc.passes .al = true ∧ svc.cfg.tForms = .refuse ∧
    ((15#4 : RegNum) = 15#4 ∨ (15#4 : RegNum) = 0#4 ∨ (15#4 : RegNum) = 1#4 ∨ (15#4 : RegNum) = 2#4 ∨
      (true = true ∧ (15#4 : RegNum) = 15#4)) ∧
    ¬ SdtAllowed true false true 1#4 0#4 (.imm 0#12) ∧ ¬ SdtAllowed false true true 15#4 0#4 (.imm 0#12) ∧
    ¬ SdtAllowed true true true 1#4 1#4 (.imm 0#12) ∧ ¬ SdtAllowed false true false 1#4 0#4 (.reg 0#5 .lsl 15#4) ∧
    (0#16 : BitVec 16) = 0#16 ∧ (1#16 : BitVec 16) ≠ 0#16 ∧ (15#4 : RegNum) = 15#4 ∧
    (14#4 : RegNum) ≠ 15#4 ∧ ¬ (true = true ∧ (0x7FFF#16 : BitVec 16).getLsbD 15 = true) ∧
    ¬ (false = true ∧ (0x8000#16 : BitVec 16).getLsbD 15 = true) := by
  refine ⟨by decide, by decide, by decide, ?_, ?_, ?_, ?_, by decide, by decide, by decide, by decide, by decide,
    by decide⟩ <;> simp [SdtAllowed, WritesBack]

/-- The default state under the alternatives, with no right on the page of 0x1000. -/
def alternativeNoRights : State :=
  { alternative with pages := setPage alternative.pages 1 (.ram ⟨false, false, false⟩) }

/-- The T-form clauses of OperandRestrictions: one that stops also under the alternative; one that USR may make, at the last
word of RAM; one that USR may not. -/
theorem witness_OperandRestrictions_TForms :
    alternative.passes .al = true ∧ alternativeNoRights.passes .al = true ∧ alternative.cfg.tForms = .userAccess ∧
    alternativeNoRights.cfg.tForms = .userAccess ∧
    ¬ SdtAllowed true false true 1#4 1#4 (.imm 0#12) ∧ ¬ SdtAllowed true false (false && true) 1#4 1#4 (.imm 0#12) ∧
    SdtAllowed true false false 1#4 0#4 (.imm 0#12) ∧ SdtAllowed false false false 4#4 4#4 (.imm 4#12) ∧
    (∀ p : Page, pageAt alternative.pages ((alternative.readBase 4#4).toNat / 4096) = some p → p.perm.w = true) ∧
    pageAt alternativeNoRights.pages ((alternativeNoRights.readBase 1#4).toNat / 4096) =
      some (.ram ⟨false, false, false⟩) ∧
    .usr ∈ alternativeNoRights.cfg.permCheckModes ∧ alternativeNoRights.cfg.sdtAbortWriteback = false ∧
    (alternativeNoRights.readBase 1#4).toNat < 2 ^ 26 := by
  refine ⟨by decide, by decide, by decide, by decide, ?_, ?_, ?_, ?_, ?_, by decide, by decide, by decide, by decide⟩
  · simp [SdtAllowed, WritesBack]
  · simp [SdtAllowed, WritesBack]
  · simp [SdtAllowed, WritesBack]
  · simp [SdtAllowed, WritesBack]
  · intro p hp
    have h : pageAt alternative.pages ((alternative.readBase 4#4).toNat / 4096) = some (.ram allRights) := by decide
    rw [h] at hp; cases hp; rfl

/-- The clauses of MemoryAccess, at the ends of a page: a fault, RAM, a device that answers and one that fails. -/
theorem witness_MemoryAccess :
    Memory.wf svc.mem = true ∧ Memory.wf (withDevice true true false).mem = true ∧
    AccessFaults svc false true 0x10000#26 ∧ AccessFaults svc true false 0x1003#26 ∧
    RamReadable svc false 0xFFFC#26 ∧ RamWritable svc true 0xFFFF#26 ∧
    (∀ fails : Bool, DeviceReadable (withDevice true true fails) false 0x1000#26 0 ∧
      DeviceWritable (withDevice true true fails) true 0x1FFF#26 0) ∧
    (∃ (w : Word) (t : State), devRead 0 true 0x1000#26 (withDevice true true false) = .done w t) ∧
    (∃ t : State, devRead 0 true 0x1000#26 (withDevice true true true) = .abort t) ∧
    (∃ (w : Word) (t : State), devWrite 0 false 0x1FFF#26 0#32 (withDevice true true false) = .done w t) ∧
    (∃ t : State, devWrite 0 false 0x1FFF#26 0#32 (withDevice true true true) = .abort t) :=
  ⟨by decide, by decide, witness_AccessFaults.1, witness_AccessFaults.2.2.2.2.2, witness_RamReadable.2.1,
    witness_RamWritable.2.2,
    fun _ => ⟨⟨allRights, rfl, fun _ => rfl, by decide⟩, ⟨allRights, rfl, fun _ => rfl, by decide⟩⟩,
    ⟨_, _, rfl⟩, ⟨_, rfl⟩, ⟨_, _, rfl⟩, ⟨_, rfl⟩⟩

/-- Of Branch, BranchWithLink and SoftwareInterrupt. -/
theorem witness_passes : svc.passes .al = true ∧ usr.passes .al = true ∧ svc.passes .ne = true := by decide

/-- The three kinds of words of UndefinedInstructions, at the edges of their ranges. -/
theorem witness_UndefinedInstructions :
    svc.passes (Cond.ofBits ((0xE00000B0#32).extractLsb' 28 4)) = true ∧
    ((0xE00000B0#32).extractLsb' 25 3 = 0b000#3 ∧ (0xE00000B0#32).getLsbD 7 = true ∧
      (0xE00000B0#32).getLsbD 4 = true ∧
      ¬ ((0xE00000B0#32).extractLsb' 22 6 = 0#6 ∧ (0xE00000B0#32).extractLsb' 4 4 = 0b1001#4) ∧
      ¬ ((0xE00000B0#32).extractLsb' 23 5 = 0b00010#5 ∧ (0xE00000B0#32).extractLsb' 20 2 = 0#2 ∧
        (0xE00000B0#32).extractLsb' 4 8 = 0b00001001#8)) ∧
    ((0xE6000010#32).extractLsb' 25 3 = 0b011#3 ∧ (0xE6000010#32).getLsbD 4 = true) ∧
    (0xEC000000#32).extractLsb' 25 3 = 0b110#3 ∧ (0xEDFFFFFF#32).extractLsb' 25 3 = 0b110#3 ∧
    svc.cfg.undefOutcome = .exception ∧ svc.cfg.cdtOutcome = .exception ∧
    alternative.cfg.undefOutcome = .unknownOpcode ∧ alternative.cfg.cdtOutcome = .unknownOpcode := by
  decide

theorem witness_BreakpointInstruction :
    svc.passes .al = true ∧ svc.bounded = true ∧ ({ svc with bounded := false } : State).passes .al = true ∧
    ({ svc with bounded := false } : State).bounded = false := by
  decide

/-- Of the coprocessor statements: the three coprocessors, and a number that names none, with which R15 as Rd has no
effect. -/
theorem witness_coprocessors :
    svc.passes .al = true ∧ svc.cfg.Wf ∧ (2#4 : BitVec 4) = cpNumber svc.cfg .hwmgr ∧
    (3#4 : BitVec 4) = cpNumber svc.cfg .mmu ∧ (4#4 : BitVec 4) = cpNumber svc.cfg .intctl ∧
    (∀ k : Coproc, (5#4 : BitVec 4) ≠ cpNumber svc.cfg k) ∧ (∀ k : Coproc, (1#4 : BitVec 4) ≠ cpNumber svc.cfg k) ∧
    (14#4 : RegNum) ≠ 15#4 ∧ (15#4 : RegNum) = 15#4 ∧
    exec (.mrc .al 0#3 1#4 15#4 5#4 0#3 0#4) svc = .next svc ∧ (3#4 : BitVec 4) = svc.cfg.cpMmu ∧ (4#4 : BitVec 4) = svc.cfg.cpIntctl := by
  refine ⟨by decide, by decide, by decide, by decide, by decide, ?_, ?_, by decide, by decide, rfl, by decide,
    by decide⟩ <;> intro k <;> cases k <;> decide

/-- The clauses of HardwareQueries: a registered index (0, the last one), the first index past it, and an op1 that names no
operation. -/
theorem witness_HardwareQueries :
    (withDevice true true false).cfg.Wf ∧
    (withDevice true true false).devices[((withDevice true true false).cr .hwmgr 0#4).toNat]? =
      some (device true true true) ∧
    svc.devices.length ≤ (svc.cr .hwmgr 0#4).toNat ∧ (1#4 : CrNum) ≠ 0#4 ∧ (7#4 : BitVec 4) ∉ svc.cfg.hwmgrOps ∧
    (15#4 : BitVec 4) ∉ svc.cfg.hwmgrOps := by
  decide

theorem witness_WaitForInterrupt :
    (usr.passes .al = true ∧ usr.cfg.Wf ∧ usr.flagI = false ∧ usr.flagF = false) ∧
    (svc.passes .al = true ∧ (svc.flagI = true ∨ svc.flagF = true)) := by
  decide

/-- One device, and the range [CR1, CR2). -/
def mapState (start stop : Word) : State :=
  ((withDevice true true false).setCr .hwmgr 1#4 start).setCr .hwmgr 2#4 stop

/-- The clauses of MapMemoryRequest: no device; a range that fails a check; a range on a device page; a range that is free,
up to the top of the space. -/
theorem witness_MapMemoryRequest :
    (mapState 0 0).passes .al = true ∧ (mapState 0 0).cfg.Wf ∧ svc.devices.length ≤ (svc.cr .hwmgr 0#4).toNat ∧
    ((mapState 0 0).cr .hwmgr 0#4).toNat < (mapState 0 0).devices.length ∧
    ¬ ((mapState 0x1000 0x1000).cr .hwmgr 1#4).toNat < ((mapState 0x1000 0x1000).cr .hwmgr 2#4).toNat ∧
    pageAt (mapState 0x1000 0x2000).pages 1 = some (.device allRights 0) ∧
    (((mapState 0x3FFF000 0x4000000).cr .hwmgr 1#4).toNat % 4096 = 0 ∧
      ((mapState 0x3FFF000 0x4000000).cr .hwmgr 2#4).toNat % 4096 = 0 ∧
      ((mapState 0x3FFF000 0x4000000).cr .hwmgr 1#4).toNat < ((mapState 0x3FFF000 0x4000000).cr .hwmgr 2#4).toNat ∧
      ((mapState 0x3FFF000 0x4000000).cr .hwmgr 2#4).toNat ≤ 2 ^ 26 ∧
      pageAt (mapState 0x3FFF000 0x4000000).pages 16383 = none) := by
  decide

theorem witness_DeviceOperation :
    (withDevice true true false).passes .al = true ∧ (withDevice true true false).cfg.Wf ∧
    (withDevice true true false).devices[((withDevice true true false).cr .hwmgr 2#4).toNat]? =
      some (device true true true) ∧
    (device true true true).operation = true ∧ (withDevice true true false).deviceReplies = [reply false] ∧
    (reply false).reenters = false ∧ svc.devices.length ≤ (svc.cr .hwmgr 2#4).toNat ∧
    (withDevice false true false).devices[((withDevice false true false).cr .hwmgr 2#4).toNat]? =
      some (device false true false) ∧ (device false true false).operation = false := by
  decide

theorem witness_ExceptionReturn :
    svc.passes .al = true ∧ svc.mode ≠ .usr ∧ ExcKind.fiq ≠ .reset ∧ (0x3FFFFFC#26 : Addr).toNat % 4 = 0 := by
  decide

/-- The clauses of InterruptSampling: FIQ beside IRQ; IRQ beside a masked FIQ; both masked. -/
theorem witness_InterruptSampling :
    (({ usr with pinFiq := true, pinIrq := true } : State).pinFiq = true ∧ usr.flagF = false ∧ usr.initialized = true) ∧
    (let s : State := start 0x04008000 [] []
     let p : State := { s with pinFiq := true, pinIrq := true }
     ¬ (p.pinFiq = true ∧ p.flagF = false) ∧ p.pinIrq = true ∧ p.flagI = false) ∧
    (let p : State := { svc with pinFiq := true, pinIrq := true }
     ¬ (p.pinFiq = true ∧ p.flagF = false) ∧ ¬ (p.pinIrq = true ∧ p.flagI = false)) := by
  decide

theorem witness_InterruptInjection :
    usr.cfg.interruptPin = .irq ∧ (svc.flagI = true ∨ svc.pinIrq = true ∨ svc.pinFiq = true) ∧
    (usr.flagI = false ∧ usr.pinIrq = false ∧ usr.pinFiq = false) := by
  decide

theorem witness_Waiting :
    (let s : State := { svc with waiting := true, pinIrq := true }
     s.initialized = true ∧ s.waiting = true ∧ ¬ (s.pinIrq = true ∧ s.flagI = false) ∧
     ¬ (s.pinFiq = true ∧ s.flagF = false)) ∧
    (let s : State := { usr with waiting := true, pinFiq := true }
     s.initialized = true ∧ s.waiting = true ∧
     ((s.pinIrq = true ∧ s.flagI = false) ∨ (s.pinFiq = true ∧ s.flagF = false))) := by
  decide

/-- The two clauses of DebugApi, with addresses in one word and in two. -/
theorem witness_DebugApi :
    ({ svc with initialized := false } : State).initialized = false ∧ svc.initialized = true ∧
    (0x8003#26 : Addr).toNat / 4 = (0x8000#26 : Addr).toNat / 4 ∧ ¬ (0x8004#26 : Addr).toNat / 4 = (0x8000#26 : Addr).toNat / 4 := by
  decide

/-- The breakpoint clauses of DebugStops. -/
theorem witness_DebugStops_breakpoint :
    let s : State := (setBreakpoint 0x8000#26 svc).2
    s.initialized = true ∧ s.waiting = false ∧ s.fiqPending = false ∧ s.irqPending = false ∧ maskBit s.bp s.pc = true ∧
    s.bounded = true ∧ maskBit ({ s with bounded := false } : State).bp s.pc = true := by
  decide

/-- `LDR R0, [R1]` with a read watchpoint on its word. -/
def watched (bounded : Bool) : State :=
  { svc with wr := [0x400], bounded := bounded, mem := memSetWord svc.mem 0x8000 0xE5910000#32 }

/-- The watchpoint clauses of DebugStops. -/
theorem witness_DebugStops_watchpoint (bounded : Bool) :
    Fetches (watched bounded) ∧ ∃ (w : Word) (u t : State),
      fetch (watched bounded).pc { watched bounded with status := .ok } = .done w u ∧
      exec (decode (watched bounded).cfg w) u.advancePc = .next t ∧ t.watchHit = true ∧ t.cfg.watchRollback = false ∧
      t.bounded = bounded := by
  cases bounded <;> exact ⟨by unfold Fetches; decide, _, _, _, rfl, rfl, by decide, by decide, by decide⟩

/-- The clauses of PrefetchAborts: the PC on the first absent page; the PC on a device page, with and without a callback. -/
theorem witness_PrefetchAborts :
    Fetches (start 0x0C010003 [] []) ∧
    pageAt (start 0x0C010003 [] []).pages ((start 0x0C010003 [] []).pc.toNat / 4096) = none ∧
    (let s : State := { withDevice true true true with r15 := 0x0C001FFF }
     Fetches s ∧ pageAt s.pages (s.pc.toNat / 4096) = some (.device allRights 0) ∧
     s.devices[0]? = some (device true true true) ∧ s.deviceReplies = [reply true] ∧ (reply true).reenters = false ∧
     (reply true).fails = true ∧ s.cfg.devFail = .abort) ∧
    (let s : State := { alternativeDevice true true with r15 := 0x0C001003 }
     Fetches s ∧ pageAt s.pages (s.pc.toNat / 4096) = some (.device allRights 0) ∧ s.deviceReplies = [reply true] ∧
     s.cfg.devFail = .refuse ∧ (s.mode ∈ s.cfg.permCheckModes → permAllows s.cfg .fetch allRights = true)) ∧
    (let s : State := { withDevice false true false with r15 := 0x0C001003 }
     Fetches s ∧ pageAt s.pages (s.pc.toNat / 4096) = some (.device allRights 0) ∧ (device false true false).readWord = false) := by
  unfold Fetches
  decide

/-- The sizes of Initialization: the largest allowed, the first above it. -/
theorem witness_Initialization :
    (2 ^ 26 + 4095) / 4096 * 4096 ≤ 2 ^ 26 ∧ 2 ^ 26 < (2 ^ 26 + 1 + 4095) / 4096 * 4096 ∧ svc.allocFails = false ∧
    ({ svc with allocFails := true } : State).allocFails = true := by
  decide

/-- A good state that steps: the reset state, whose empty RAM holds a word whose condition fails or has no effect. -/
theorem witness_GoodKept : State.reset.Good ∧ ∃ t, step State.reset = .next t :=
  ⟨by constructor <;> decide, _, rfl⟩

/-- Of UserCannotEscalate and HostOwnedState. -/
theorem witness_UserCannotEscalate :
    usr.cfg.Wf ∧ usr.mode = .usr ∧ (∃ t, exec (.swi .al 0#24) usr = .next t) ∧ ∃ t, exec (.b .al 0#24) usr = .next t :=
  ⟨by decide, by decide, ⟨_, rfl⟩, ⟨_, rfl⟩⟩

/-- A store in USR mode next to the read-only page, and one into it (which aborts). -/
theorem witness_UserCannotWrite :
    Memory.wf usrReadOnly.mem = true ∧ usrReadOnly.mode = .usr ∧ .usr ∈ usrReadOnly.cfg.permCheckModes ∧
    0x1FFF < 2 ^ 26 ∧ pageAt usrReadOnly.pages (0x1FFF / 4096) = some (.ram ⟨true, false, true⟩) ∧
    (∃ t, exec (.strImm .al true true false 1#4 0#4 0#12) usrReadOnly = .next t) ∧
    ∃ t, exec (.strImm .al true true false 4#4 0#4 0#12) usrReadOnly = .next t :=
  ⟨by decide, by decide, by decide, by decide, by decide, ⟨_, rfl⟩, ⟨_, rfl⟩⟩

end Sys2Proof.Tests
end

section
/-! SUPPORT. Privilege (60_exceptions.md R520): what an instruction run in USR mode can do to I, F and the mode. -/

namespace Sys2Proof.Machine

/-- `t` has the mode and the interrupt masks of `s`. -/
def PrivilegeKept (s t : State) : Prop :=
  t.mode = s.mode ∧ t.flagI = s.flagI ∧ t.flagF = s.flagF

namespace PrivilegeKept

theorem refl (s : State) : PrivilegeKept s s := ⟨rfl, rfl, rfl⟩

theorem trans {s t u : State} (h : PrivilegeKept s t) (k : PrivilegeKept t u) : PrivilegeKept s u :=
  ⟨k.1.trans h.1, k.2.1.trans h.2.1, k.2.2.trans h.2.2⟩

/-- Four bits of R15 hold the mode and the masks (10_state.md R40). -/
theorem of_bits {s t : State} (h : ∀ i ∈ [0, 1, 26, 27], t.r15.getLsbD i = s.r15.getLsbD i) : PrivilegeKept s t := by
  have hm : t.r15.extractLsb' 0 2 = s.r15.extractLsb' 0 2 := by
    ext i hi
    simp only [BitVec.getElem_extractLsb', Nat.zero_add]
    exact h i (by interval_cases i <;> decide)
  exact ⟨by simp only [State.mode, hm], h 27 (by decide), h 26 (by decide)⟩

theorem of_r15 {s t : State} (h : t.r15 = s.r15) : PrivilegeKept s t := of_bits fun i _ => by rw [h]

theorem of_access {s t : State} (h : AccessEffect s t) : PrivilegeKept s t := of_r15 h.r15

theorem of_low {s t : State} (h : LowKept s t) : PrivilegeKept s t := by
  refine of_bits fun i hi => ?_
  have hi28 : i < 28 := by revert i; decide
  simpa [BitVec.getLsbD_extractLsb', hi28] using congrArg (fun x => x.getLsbD i) h

/-- A write of the PC field of R15. -/
theorem of_r15Full {s t : State} (p : Addr) (h : t.r15 = r15Full s.r15 p) : PrivilegeKept s t := by
  refine of_bits fun i hi => ?_
  have hi32 : i < 32 := by revert i; decide
  have hpc : ¬ (2 ≤ i ∧ i < 26) := by revert i; decide
  rw [h, BitVec.getLsbD_eq_getElem hi32, r15Full_bits, if_neg hpc]

theorem writePc (s : State) (v : Word) : PrivilegeKept s (s.writePc v) := of_r15Full _ rfl

theorem setReg (s : State) (r : RegNum) (v : Word) (h : r ≠ 15#4) : PrivilegeKept s (s.setReg r v) :=
  of_r15 (setReg_r15 s r v h)

theorem setCr (s : State) (cp : Coproc) (n : CrNum) (v : Word) : PrivilegeKept s (s.setCr cp n v) := by
  cases cp <;> exact of_r15 rfl

end PrivilegeKept

/-! R15 written in USR mode. -/

/-- `USER_R15_WRITE_MASK` leaves I, F and M alone (60_exceptions.md R520). -/
theorem userMask_privilege (cfg : Config) (h : cfg.Wf) :
    ∀ i ∈ [0, 1, 26, 27], cfg.userR15WriteMask.getLsbD i = false := by
  obtain ⟨-, -, -, hmask, -⟩ := h
  intro i hi
  have hi4 : (0x0C000003#32).getLsbD i = true := by revert i; decide
  simpa [hi4] using congrArg (fun x => x.getLsbD i) hmask

theorem getLsbD_writeR15User (s : State) (v : Word) (j : Nat) (hj : j < 32) :
    (s.writeR15User v).r15.getLsbD j =
      if s.cfg.userR15WriteMask.getLsbD j then v.getLsbD j else s.r15.getLsbD j := by
  simp only [State.writeR15User, BitVec.getLsbD_or, BitVec.getLsbD_and, BitVec.getLsbD_not, hj]
  cases s.cfg.userR15WriteMask.getLsbD j <;> simp

/-- `WriteR15S` in USR mode keeps the mode and the masks. -/
theorem writeR15S_privilege (s : State) (v : Word) (hw : s.cfg.Wf) (hm : s.mode = .usr) :
    PrivilegeKept s (s.writeR15S v) := by
  rw [State.writeR15S, if_pos hm]
  refine .of_bits fun i hi => ?_
  have hi32 : i < 32 := by revert i; decide
  rw [getLsbD_writeR15User s v i hi32, userMask_privilege s.cfg hw i hi]
  rfl

/-- The PSR write in USR mode reaches N, Z, C and V only (40_data_processing.md R214). -/
theorem psrWrite_low_of_usr (s : State) (v : Word) (hm : s.mode = .usr) : LowKept s (s.psrWrite v) := by
  rw [State.psrWrite, if_pos hm]
  ext i hi
  have h28 : ¬ 28 ≤ i := by omega
  have h32 : i < 32 := by omega
  simp only [BitVec.getElem_extractLsb', BitVec.getLsbD_or, getLsbD_fieldAt, BitVec.getLsbD_extractLsb']
  simp [hi, h28, h32]

/-! Exceptions an instruction takes. -/

/-- The exceptions `exec` raises, each entered in SVC mode (60_exceptions.md R501). -/
def instrExceptions : List ExcKind :=
  [.undefinedInstruction, .softwareInterrupt, .dataAbort, .addressException]

/-- `t` is in SVC mode at the vector of one of `instrExceptions`, with I set and F as in `s`. -/
def Trapped (s t : State) : Prop :=
  t.mode = .svc ∧ t.flagI = true ∧ t.flagF = s.flagF ∧
  (t.pc = 0x04#26 ∨ t.pc = 0x08#26 ∨ t.pc = 0x10#26 ∨ t.pc = 0x14#26)

/-- What R520 allows: the mode and the masks kept, or SVC mode entered through a vector. -/
def Confined (s t : State) : Prop :=
  PrivilegeKept s t ∨ Trapped s t

theorem excEntry_of_instrExceptions (k : ExcKind) (hk : k ∈ instrExceptions) :
    (excEntry k).mode = .svc ∧ (excEntry k).setsF = false ∧
    ((excEntry k).vector = 0x04#26 ∨ (excEntry k).vector = 0x08#26 ∨ (excEntry k).vector = 0x10#26 ∨
      (excEntry k).vector = 0x14#26) := by
  revert k; decide

theorem enter_trapped (k : ExcKind) (hk : k ∈ instrExceptions) (link : Addr) (s : State) : Trapped s (enter k link s) := by
  obtain ⟨hmode, hsetsF, hvector⟩ := excEntry_of_instrExceptions k hk
  obtain ⟨-, -, -, -, hI, hF⟩ := enter_flags k link s
  refine ⟨(enter_mode ..).trans hmode, hI, ?_, ?_⟩
  · rw [hF, hsetsF, Bool.false_or]
  · rw [enter_pc]; exact hvector

namespace Confined

theorem refl (s : State) : Confined s s := .inl (.refl s)

theorem enter {k : ExcKind} (hk : k ∈ instrExceptions) (link : Addr) {s t : State} (h : PrivilegeKept s t) :
    Confined s (enter k link t) := by
  obtain ⟨hm, hI, hF, hpc⟩ := enter_trapped k hk link t
  exact .inr ⟨hm, hI, hF.trans h.2.2, hpc⟩

theorem raise {k : ExcKind} (hk : k ∈ instrExceptions) (link : Addr) {s t : State} (h : PrivilegeKept s t) :
    Confined s (raise k link t) :=
  enter hk link (h.trans (.of_r15 rfl))

theorem raiseHere {k : ExcKind} (hk : k ∈ instrExceptions) {s t : State} (h : PrivilegeKept s t) :
    Confined s (raiseHere k t) :=
  raise hk _ h

end Confined

/-! What an access leaves, by the way it ends. -/

namespace Access.Leaves

theorem imp {α : Type} {r : Access α} {P Q : State → Prop} (h : r.Leaves P) (k : ∀ t, P t → Q t) : r.Leaves Q := by
  cases r with
  | done v t | abort t => exact k t h
  | refused x => trivial

theorem of_done {α : Type} {r : Access α} {P : State → Prop} {v : α} {t : State} (h : r.Leaves P) (hr : r = .done v t) :
    P t := by
  subst hr; exact h

theorem of_abort {α : Type} {r : Access α} {P : State → Prop} {t : State} (h : r.Leaves P) (hr : r = .abort t) :
    P t := by
  subst hr; exact h

end Access.Leaves

theorem memRead_effect (word : Bool) (a : Addr) (s : State) : (memRead word a s).Leaves (AccessEffect s) :=
  (memRead_leaves word a s).imp fun _ h => h.1

theorem memWrite_effect (word : Bool) (a : Addr) (v : Word) (s : State) :
    (memWrite word a v s).Leaves (AccessEffect s) :=
  (memWrite_leaves word a v s).imp fun _ h => h.1

/-- A single transfer's access, a T form's too, leaves registers and R15 as they were. -/
theorem sdtAccess_effect {α : Type} (pf wf : Bool) (access : State → Access α) (s : State)
    (h : ∀ u, (access u).Leaves (AccessEffect u)) : (sdtAccess pf wf access s).Leaves (AccessEffect s) :=
  (sdtAccess_leaves pf wf access s (fun _ _ => True) (fun u => (h u).imp fun _ k => ⟨k, trivial⟩)
    fun _ _ => trivial).imp fun _ k => k.1

/-! The shared parts of the meanings. -/

theorem takeUndefined_confined (o : UndefOutcome) (s : State) : Confined s (takeUndefined o s) := by
  cases o with
  | exception => exact .raiseHere (by decide) (.refl s)
  | unknownOpcode => exact .inl (.of_r15 rfl)

theorem raiseBreakpoint_confined (s : State) : Confined s (raiseBreakpoint s) := by
  unfold raiseBreakpoint breakAt resolveBreakpoint
  split
  · exact .inl (.of_r15Full _ rfl)
  · exact .enter (by decide) _ (.of_r15 rfl)

theorem dpExec_privilege (op : DpOp) (sf : Bool) (rn rd : RegNum) (op2 : Word × Bool) (s : State) (hw : s.cfg.Wf)
    (hm : s.mode = .usr) : PrivilegeKept s (dpExec op sf rn rd op2 s) := by
  unfold dpExec
  dsimp only
  split
  · split
    · exact .refl s
    · split
      · exact .of_low (psrWrite_low_of_usr s _ hm)
      · exact .of_low (setNzcv_low ..)
  · split
    · split
      · exact writeR15S_privilege s _ hw hm
      · exact .writePc s _
    · rename_i hrd
      split
      · exact (PrivilegeKept.setReg s rd _ hrd).trans (.of_low (setNzcv_low ..))
      · exact .setReg s rd _ hrd

theorem mulRefusal_none_rd {rd rm : RegNum} {ops : List RegNum} (h : mulRefusal rd rm (rd :: ops) = none) :
    rd ≠ 15#4 := by
  rintro rfl
  simp [mulRefusal] at h

theorem mulWrite_privilege (sf : Bool) (rd : RegNum) (res : Word) (s : State) (h : rd ≠ 15#4) :
    PrivilegeKept s (mulWrite sf rd res s) := by
  unfold mulWrite
  split
  · exact (PrivilegeKept.setReg s rd res h).trans (.of_low (setNzcv_low ..))
  · exact .setReg s rd res h

theorem swapExec_confined (byte : Bool) (rn rd rm : RegNum) (s t : State) (h : swapExec byte rn rd rm s = .next t) :
    Confined s t := by
  unfold swapExec at h
  split at h
  · cases h
  rename_i hregs
  split at h
  · cases h
    exact .raiseHere (by decide) (.refl s)
  split at h <;> rename_i hr
  · cases h
  · cases h
    exact .raiseHere (by decide) (.of_access ((memRead_effect ..).of_abort hr))
  · have hread := (memRead_effect ..).of_done hr
    split at h <;> rename_i hv
    · cases h
    · cases h
      exact .raiseHere (by decide) (.of_access (hread.trans ((memWrite_effect ..).of_abort hv)))
    · cases h
      have hrd : rd ≠ 15#4 := fun e => hregs (.inr (.inl e))
      exact .inl ((PrivilegeKept.of_access (hread.trans ((memWrite_effect ..).of_done hv))).trans (.setReg _ rd _ hrd))

/-! Single transfers. -/

theorem sdtRefusal_none {forms : TForms} {load pf wf : Bool} {rn rd : RegNum}
    (h : sdtRefusal forms load pf wf rn rd = none) : (!pf || wf) = true → rn ≠ 15#4 := by
  intro hwb hrn
  unfold sdtRefusal at h
  split at h
  · cases h
  · simp [hwb, hrn] at h

theorem sdtWriteback_privilege (pf wf : Bool) (rn : RegNum) (moved : Word) (s : State)
    (h : (!pf || wf) = true → rn ≠ 15#4) : PrivilegeKept s (sdtWriteback pf wf rn moved s) := by
  unfold sdtWriteback
  split
  · rename_i hwb
    exact .setReg s rn moved (h hwb)
  · exact .refl s

theorem sdtAbort_confined (pf wf : Bool) (rn : RegNum) (moved : Word) {s t : State} (hk : PrivilegeKept s t)
    (h : (!pf || wf) = true → rn ≠ 15#4) : Confined s (sdtAbort pf wf rn moved t) := by
  unfold sdtAbort
  split
  · exact .raise (by decide) _ (hk.trans (sdtWriteback_privilege pf wf rn moved t h))
  · exact .raise (by decide) _ hk

theorem sdtLoadInto_privilege (rd : RegNum) (v : Word) (s : State) : PrivilegeKept s (sdtLoadInto rd v s) := by
  unfold sdtLoadInto
  split
  · exact .writePc s v
  · rename_i hrd
    exact .setReg s rd v hrd

theorem sdtTransfer_confined (load byte pf uf wf : Bool) (rn rd : RegNum) (offset : Word) (s t : State)
    (hwb : (!pf || wf) = true → rn ≠ 15#4) (h : sdtTransfer load byte pf uf wf rn rd offset s = .next t) :
    Confined s t := by
  unfold sdtTransfer at h
  dsimp only at h
  split at h
  · cases h
    exact .raiseHere (by decide) (.refl s)
  split at h
  · have hread := sdtAccess_effect pf wf _ s (memRead_effect (!byte) (busAddr (transferAddr pf uf (s.readBase rn) offset)))
    split at h <;> rename_i hr
    · cases h
      have hdone := PrivilegeKept.of_access (hread.of_done hr)
      exact .inl ((hdone.trans (sdtWriteback_privilege pf wf rn _ _ hwb)).trans (sdtLoadInto_privilege rd _ _))
    · cases h
      exact sdtAbort_confined pf wf rn _ (.of_access (hread.of_abort hr)) hwb
    · cases h
  · have hwrite := sdtAccess_effect pf wf _ s
      (memWrite_effect (!byte) (busAddr (transferAddr pf uf (s.readBase rn) offset)) (sdtStoreValue byte rd s))
    split at h <;> rename_i hr
    · cases h
      exact .inl ((PrivilegeKept.of_access (hwrite.of_done hr)).trans (sdtWriteback_privilege pf wf rn _ _ hwb))
    · cases h
      exact sdtAbort_confined pf wf rn _ (.of_access (hwrite.of_abort hr)) hwb
    · cases h

theorem sdtImm_confined (load byte pf uf wf : Bool) (rn rd : RegNum) (imm12 : BitVec 12) (s t : State)
    (h : sdtImm load byte pf uf wf rn rd imm12 s = .next t) : Confined s t := by
  unfold sdtImm at h
  split at h
  · cases h
  · rename_i hr
    exact sdtTransfer_confined load byte pf uf wf rn rd _ s t (sdtRefusal_none hr) h

theorem sdtReg_confined (load byte pf uf wf : Bool) (rn rd : RegNum) (shamt : BitVec 5) (sh : ShiftType) (rm : RegNum)
    (s t : State) (h : sdtReg load byte pf uf wf rn rd shamt sh rm s = .next t) : Confined s t := by
  unfold sdtReg at h
  split at h
  · cases h
  · rename_i hr
    split at h
    · cases h
    · exact sdtTransfer_confined load byte pf uf wf rn rd _ s t (sdtRefusal_none hr) h

/-! Block transfers. -/

theorem ExecEffect.cfg {s t : State} (h : ExecEffect s t) : t.cfg = s.cfg := (congrArg State.cfg h :)

theorem bdtRefusal_none {meaning : BlockS} {load sf wf : Bool} {rn : RegNum} {reglist : BitVec 16}
    (h : bdtRefusal meaning load sf wf rn reglist = none) : wf = true → rn ≠ 15#4 := by
  intro hwf hrn
  unfold bdtRefusal at h
  split at h
  · cases h
  · simp [hwf, hrn] at h

theorem bdtWriteback_privilege (uf wf : Bool) (rn : RegNum) (reglist : BitVec 16) (s : State)
    (h : wf = true → rn ≠ 15#4) : PrivilegeKept s (bdtWriteback uf wf rn reglist s) := by
  unfold bdtWriteback
  split
  · rename_i hwf
    exact .setReg s rn _ (h hwf)
  · exact .refl s

theorem ldmInto_privilege (ub sf : Bool) (i : RegNum) (v : Word) (s : State) (hw : s.cfg.Wf) (hm : s.mode = .usr) :
    PrivilegeKept s (ldmInto ub sf i v s) := by
  rw [ldmInto_eq]
  split
  · split
    · exact writeR15S_privilege s v hw hm
    · exact .writePc s v
  · rename_i hi
    unfold setBlockReg
    split
    · exact .of_r15 (setUserReg_r15 s i v hi)
    · exact .setReg s i v hi

/-- Each load of an LDM keeps the mode, so the next one is in USR mode as well. -/
theorem ldmLoop_privilege (ub sf : Bool) (l : List RegNum) (a : Word) (aborted : Bool) (s : State) (hw : s.cfg.Wf)
    (hm : s.mode = .usr) : (ldmLoop ub sf l a aborted s).Leaves (PrivilegeKept s) := by
  induction l generalizing a aborted s with
  | nil => rw [ldmLoop]; cases aborted <;> exact PrivilegeKept.refl s
  | cons i l ih =>
    rw [ldmLoop]
    split
    · exact ih _ _ s hw hm
    · split
      · rename_i v t hr
        have ht := (memRead_effect ..).of_done hr
        have hcfg : t.cfg.Wf := by rwa [ht.cfg]
        have hinto := ldmInto_privilege ub sf i v t hcfg (ht.mode.trans hm)
        have hcfg' : (ldmInto ub sf i v t).cfg = t.cfg := (ldmInto_effect ub sf i v t).1.cfg
        have hkept := (PrivilegeKept.of_access ht).trans hinto
        exact (ih _ _ _ (by rwa [hcfg']) (hkept.1.trans hm)).imp fun _ => hkept.trans
      · rename_i hr
        have ht := (memRead_effect ..).of_abort hr
        exact (ih _ _ _ (by rwa [ht.cfg]) (ht.mode.trans hm)).imp fun _ => (PrivilegeKept.of_access ht).trans
      · trivial

/-- A block transfer ends as its loop does, with a data abort if an access aborted. -/
theorem bdtFinish_confined (link : Addr) (r : Access Unit) (s t : State) (hr : r.Leaves (PrivilegeKept s))
    (h : bdtFinish link r = .next t) : Confined s t := by
  cases r with
  | done u v => cases h; exact .inl hr
  | abort v => cases h; exact .raise (by decide) _ hr
  | refused x => cases h

theorem bdtExec_confined (load pf uf sf wf : Bool) (rn : RegNum) (reglist : BitVec 16) (s t : State) (hw : s.cfg.Wf)
    (hm : s.mode = .usr) (h : bdtExec load pf uf sf wf rn reglist s = .next t) : Confined s t := by
  unfold bdtExec at h
  split at h
  · cases h
  rename_i hr
  have hwb := bdtWriteback_privilege uf wf rn reglist s (bdtRefusal_none hr)
  have hcfg : (bdtWriteback uf wf rn reglist s).cfg = s.cfg :=
    (bdtWriteback_effect uf wf rn reglist s).1.cfg
  dsimp only at h
  split at h
  · refine bdtFinish_confined _ _ s t (Access.Leaves.imp (ldmLoop_privilege _ _ _ _ _ _ ?_ (hwb.1.trans hm)) ?_) h
    · rwa [hcfg]
    · exact fun _ => hwb.trans
  · refine bdtFinish_confined _ _ s t ((stmLoop_leaves ..).imp ?_) h
    exact fun _ k => hwb.trans (.of_access k)

/-! Coprocessors. -/

theorem hwDeviceOp_privilege (crn crd crm : CrNum) (s t : State) (h : hwDeviceOp crn crd crm s = .next t) :
    PrivilegeKept s t := by
  unfold hwDeviceOp at h
  split at h
  · cases h; exact .setCr ..
  split at h
  · cases h; exact .setCr ..
  dsimp only at h
  have hcall : ∀ u, AccessEffect s u → ∀ v, PrivilegeKept s (setHwCr u crd v) := fun u hu v =>
    (PrivilegeKept.of_access hu).trans (.setCr ..)
  split at h <;> rename_i hc
  · cases h
    exact hcall _ ((callDevice_leaves ..).of_done hc).1 _
  · cases h
    exact hcall _ ((callDevice_leaves ..).of_abort hc).1 _
  · cases h

theorem hwmgrOperation_privilege (op1 : BitVec 4) (crn crd crm : CrNum) (s t : State)
    (h : hwmgrOperation op1 crn crd crm s = .next t) : PrivilegeKept s t := by
  unfold hwmgrOperation at h
  split at h
  · cases h; exact .setCr ..
  split at h
  · cases h; exact .of_r15 (congrArg State.r15 (hwMapMemory_eq crn crd crm s) :)
  split at h
  · cases h
    unfold hwDeviceId
    split <;> exact .setCr ..
  split at h
  · cases h
    exact (PrivilegeKept.setCr ..).trans (.setCr ..)
  split at h
  · cases h
    unfold hwWait
    split
    · exact .of_r15 rfl
    · exact .refl s
  split at h
  · cases h; exact .setCr ..
  split at h
  · exact hwDeviceOp_privilege crn crd crm s t h
  · cases h; exact .refl s

/-! Every instruction. -/

theorem whenPasses_confined (c : Cond) (s t : State) (o : Host.Outcome State Fault Refusal)
    (h : whenPasses c s o = .next t) (ho : o = .next t → Confined s t) : Confined s t := by
  rcases whenPasses_next c s t o h with rfl | ⟨-, h⟩
  · exact .refl t
  · exact ho h

theorem dpOutcome_confined (op : DpOp) (sf : Bool) (rn rd : RegNum) (op2 : Word × Bool) (s t : State) (hw : s.cfg.Wf)
    (hm : s.mode = .usr) (h : dpOutcome op sf rn rd op2 s = .next t) : Confined s t := by
  rw [dpOutcome_next op sf rn rd op2 s t h]
  exact .inl (dpExec_privilege op sf rn rd op2 s hw hm)

theorem exec_confined (i : Instr) (s t : State) (hw : s.cfg.Wf) (hm : s.mode = .usr) (h : exec i s = .next t) :
    Confined s t := by
  cases shape i with
  | dpImm op c sf rn rd rot imm8 =>
    rw [exec_dpImm] at h
    exact whenPasses_confined c s t _ h (dpOutcome_confined op sf rn rd _ s t hw hm)
  | dpRsi op c sf rn rd shamt sh rm =>
    rw [exec_dpRsi] at h
    exact whenPasses_confined c s t _ h (dpOutcome_confined op sf rn rd _ s t hw hm)
  | dpRsr op c sf rn rd rs sh rm =>
    rw [exec_dpRsr] at h
    exact whenPasses_confined c s t _ h (dpOutcome_confined op sf rn rd _ s t hw hm)
  | mul c sf rd rn rs rm =>
    refine whenPasses_confined c s t _ h fun h => ?_
    split at h
    · cases h
    · rename_i hr
      cases h
      exact .inl (mulWrite_privilege sf rd _ s (mulRefusal_none_rd hr))
  | mla c sf rd rn rs rm =>
    refine whenPasses_confined c s t _ h fun h => ?_
    split at h
    · cases h
    · rename_i hr
      cases h
      exact .inl (mulWrite_privilege sf rd _ s (mulRefusal_none_rd hr))
  | swp c rn rd rm => exact whenPasses_confined c s t _ h (swapExec_confined false rn rd rm s t)
  | swpb c rn rd rm => exact whenPasses_confined c s t _ h (swapExec_confined true rn rd rm s t)
  | sdtImm load byte c pf uf wf rn rd imm12 =>
    rw [exec_sdtImm] at h
    exact whenPasses_confined c s t _ h (sdtImm_confined load byte pf uf wf rn rd imm12 s t)
  | sdtReg load byte c pf uf wf rn rd shamt sh rm =>
    rw [exec_sdtReg] at h
    exact whenPasses_confined c s t _ h (sdtReg_confined load byte pf uf wf rn rd shamt sh rm s t)
  | stm c pf uf sf wf rn reglist =>
    exact whenPasses_confined c s t _ h (bdtExec_confined false pf uf sf wf rn reglist s t hw hm)
  | ldm c pf uf sf wf rn reglist =>
    exact whenPasses_confined c s t _ h (bdtExec_confined true pf uf sf wf rn reglist s t hw hm)
  | b c offset24 =>
    refine whenPasses_confined c s t _ h fun h => ?_
    cases h
    exact .inl (.writePc s _)
  | bl c offset24 =>
    refine whenPasses_confined c s t _ h fun h => ?_
    cases h
    exact .inl ((PrivilegeKept.setReg s 14#4 _ (by decide)).trans (.writePc _ _))
  | cdp c op1 crn crd cp op2 crm =>
    refine whenPasses_confined c s t _ h fun h => ?_
    split at h
    · cases h; exact .refl s
    · exact .inl (hwmgrOperation_privilege op1 crn crd crm s t h)
    · cases h
    · cases h
  | mcr c op1 crn rd cp op2 crm =>
    refine whenPasses_confined c s t _ h fun h => ?_
    split at h
    · cases h; exact .refl s
    · cases h; exact .inl (.setCr ..)
  | mrc c op1 crn rd cp op2 crm =>
    refine whenPasses_confined c s t _ h fun h => ?_
    split at h
    · cases h; exact .refl s
    · split at h
      · cases h
      · rename_i hrd
        cases h
        exact .inl (.setReg s rd _ hrd)
  | swi c imm24 =>
    refine whenPasses_confined c s t _ h fun h => ?_
    cases h
    exact .raiseHere (by decide) (.refl s)
  | bkpt c imm24 =>
    refine whenPasses_confined c s t _ h fun h => ?_
    cases h
    exact raiseBreakpoint_confined s
  | undefDp c bits | undefSdt c bits | stc c pf uf nf wf rn crd cp offset8 | ldc c pf uf nf wf rn crd cp offset8 =>
    refine whenPasses_confined c s t _ h fun h => ?_
    cases h
    exact takeUndefined_confined _ s

/-- Settles O58: by the shape of the instruction, from `exec_confined`. -/
theorem userCannotEscalate : Obligations.UserCannotEscalate := by
  unfold Obligations.UserCannotEscalate
  intro i s t hw hm h
  rcases exec_confined i s t hw hm h with ⟨hmode, hI, hF⟩ | htrap
  · exact .inl ⟨hmode.trans hm, hI, hF⟩
  · exact .inr htrap

end Sys2Proof.Machine
end

section
/-! SUPPORT. Data processing with Rd = 15 and S = 1 (40_data_processing.md R213). -/

namespace Sys2Proof.Machine

theorem exec_dpInstr (op : DpOp) (c : Cond) (sf : Bool) (rn rd : RegNum) (o : Op2) (s : State) :
    exec (dpInstr op c sf rn rd o) s = whenPasses c s (dpOutcome op sf rn rd (op2Value o s) s) := by
  cases o with
  | imm rot imm8 => exact exec_dpImm ..
  | rsi shamt sh rm => exact exec_dpRsi ..
  | rsr rs sh rm => exact exec_dpRsr ..

theorem isTest_eq_false (op : DpOp) (h : ¬ IsTest op) : DpOp.isTest op = false := by
  unfold IsTest at h
  cases op <;> simp_all [DpOp.isTest]

/-! The result. -/

theorem addWithCarry_res (a b : Word) (cin : Bool) :
    (addWithCarry a b cin).res = a + b + (if cin then 1#32 else 0#32) := by
  unfold addWithCarry
  apply BitVec.eq_of_toNat_eq
  cases cin <;> simp

/-- Subtraction by the one's complement and a carry in (40_data_processing.md R207). -/
theorem add_not_add_one (a b : Word) : a + ~~~b + 1#32 = a - b := by
  rw [BitVec.sub_eq_add_neg, BitVec.neg_eq_not_add, BitVec.add_assoc]

theorem add_not (a b : Word) : a + ~~~b = a - b - 1#32 := eq_sub_of_add_eq (add_not_add_one a b)

/-- The result of an operation is the one the opcode table states (30_encoding.md R164). -/
theorem dpCompute_res (op : DpOp) (a b : Word) (sc c v : Bool) : (dpCompute op a b sc c v).res = tableResult op a b c := by
  cases op with
  | and | eor | tst | teq | orr | mov | bic | mvn => rfl
  | sub | cmp | rsb => simp only [dpCompute, tableResult, addWithCarry_res, if_true, add_not_add_one]
  | add | cmn | adc => simp [dpCompute, tableResult, addWithCarry_res]
  | sbc | rsc => cases c <;> simp [dpCompute, tableResult, addWithCarry_res, add_not]

/-! R15 written. -/

theorem writeR15S_eq (s : State) (v : Word) : s.writeR15S v = { s with r15 := (s.writeR15S v).r15 } := by
  unfold State.writeR15S
  split <;> rfl

theorem writeR15S_of_usr (s : State) (v : Word) (h : s.mode = .usr) : s.writeR15S v = s.writeR15User v := if_pos h

theorem writeR15S_of_privileged (s : State) (v : Word) (h : s.mode ≠ .usr) : s.writeR15S v = s.writeR15Full v :=
  if_neg h

theorem exec_dpInstr_r15 (op : DpOp) (c : Cond) (rn : RegNum) (o : Op2) (s : State) (hc : s.passes c = true)
    (ht : ¬ IsTest op) :
    exec (dpInstr op c true rn 15#4 o) s =
      .next (s.writeR15S (tableResult op (s.readBase rn) (op2Value o s).1 s.flagC)) := by
  rw [exec_dpInstr, whenPasses_of_pass _ _ _ hc, dpOutcome_eq_next _ _ _ _ _ _ (.inr (.inl rfl))]
  simp [dpExec, isTest_eq_false op ht, dpCompute_res]

/-- Settles O15: the instruction is `WriteR15S` of the table's result, in both modes. -/
theorem resultToR15 : Obligations.ResultToR15 := by
  unfold Obligations.ResultToR15
  intro op c rn o s hc ht
  refine ⟨_, exec_dpInstr_r15 op c rn o s hc ht, writeR15S_eq s _, fun hm => ?_, fun hm j hj => ?_⟩
  · rw [writeR15S_of_privileged s _ hm]
    rfl
  · rw [writeR15S_of_usr s _ hm]
    exact getLsbD_writeR15User s _ j hj

end Sys2Proof.Machine
end

section
/-! SUPPORT. The operands (10_state.md R45; 30_encoding.md R165). -/

namespace Sys2Proof.Machine

theorem prefetch_eq (s : State) : s.prefetch = s.instrAddr + 8#26 := by
  rw [State.prefetch, ← instrAddr_add_four s, BitVec.add_assoc]
  rfl

theorem r15PcOnly_toNat (p : Addr) : (r15PcOnly p).toNat = p.toNat := by
  have h := addr_lt p
  rw [r15PcOnly, BitVec.toNat_setWidth]
  omega

/-! `NoMode(P)`. -/

theorem r15NoMode_bits (r : Word) (p : Addr) (i : Nat) (h : i < 32) :
    (r15NoMode r p)[i] = if i < 2 then false else if i < 26 then p.getLsbD i else r.getLsbD i := by
  unfold r15NoMode
  simp only [BitVec.getElem_or, getElem_fieldAt, BitVec.getLsbD_extractLsb']
  interval_cases i <;> simp

@[simp] theorem r15NoMode_psr (r : Word) (p : Addr) : (r15NoMode r p).extractLsb' 26 6 = r.extractLsb' 26 6 := by
  ext i hi
  simp only [BitVec.getElem_extractLsb']
  rw [BitVec.getLsbD_eq_getElem (by omega), r15NoMode_bits, if_neg (by omega), if_neg (by omega)]

@[simp] theorem r15NoMode_field (r : Word) (p : Addr) : (r15NoMode r p).extractLsb' 2 24 = p.extractLsb' 2 24 := by
  ext i hi
  simp only [BitVec.getElem_extractLsb']
  rw [BitVec.getLsbD_eq_getElem (by omega), r15NoMode_bits, if_neg (by omega), if_pos (by omega)]

@[simp] theorem r15NoMode_mode (r : Word) (p : Addr) : (r15NoMode r p).extractLsb' 0 2 = 0#2 := by
  ext i hi
  simp only [BitVec.getElem_extractLsb', BitVec.getElem_zero]
  rw [BitVec.getLsbD_eq_getElem (by omega), r15NoMode_bits, if_pos (by omega)]

/-! Operand reads. -/

theorem readBase_r15 (s : State) : s.readBase 15#4 = r15PcOnly (s.instrAddr + 8#26) := by
  rw [← prefetch_eq]; rfl

theorem readFull_r15 (s : State) : s.readFull 15#4 = r15Full s.r15 (s.instrAddr + 8#26) := by
  rw [← prefetch_eq]; rfl

theorem readNoMode_r15 (s : State) : s.readNoMode 15#4 = r15NoMode s.r15 (s.instrAddr + 8#26) := by
  rw [← prefetch_eq]; rfl

theorem readBase_of_ne (s : State) (r : RegNum) (h : r ≠ 15#4) : s.readBase r = s.reg r := if_neg h

theorem readFull_of_ne (s : State) (r : RegNum) (h : r ≠ 15#4) : s.readFull r = s.reg r := if_neg h

theorem readNoMode_of_ne (s : State) (r : RegNum) (h : r ≠ 15#4) : s.readNoMode r = s.reg r := if_neg h

/-- The bits of a rotated immediate (30_encoding.md R165). -/
theorem getLsbD_op2Imm (rot : BitVec 4) (imm8 : BitVec 8) (s : State) (i : Nat) (hi : i < 32) :
    (op2Imm rot imm8 s).1.getLsbD i = imm8.getLsbD ((i + 2 * rot.toNat) % 32) := by
  have hrot : 2 * rot.toNat < 32 := by omega
  simp only [op2Imm, BitVec.getLsbD_rotateRight, Nat.mod_eq_of_lt hrot, BitVec.getLsbD_setWidth]
  by_cases h : i < 32 - 2 * rot.toNat
  · have hlt : 2 * rot.toNat + i < 32 := by omega
    have hmod : (i + 2 * rot.toNat) % 32 = 2 * rot.toNat + i := by omega
    simp [h, hlt, hmod]
  · have hlt : i - (32 - 2 * rot.toNat) < 32 := by omega
    have hmod : (i + 2 * rot.toNat) % 32 = i - (32 - 2 * rot.toNat) := by omega
    simp [h, hi, hlt, hmod]

/-- Settles O8: the three forms of R15, the other registers, and the rotated immediate. -/
theorem operandValues : Obligations.OperandValues := by
  unfold Obligations.OperandValues
  refine ⟨fun s => ?_, fun s r hr => ?_, fun s rot imm8 => ⟨fun i hi => getLsbD_op2Imm rot imm8 s i hi, rfl⟩⟩
  · rw [readBase_r15, readFull_r15, readNoMode_r15]
    refine ⟨?_, r15Full_psr .., r15Full_field .., r15Full_mode .., r15NoMode_psr .., r15NoMode_field ..,
      r15NoMode_mode ..⟩
    rw [r15PcOnly_toNat, BitVec.toNat_add]
    rfl
  · exact ⟨readBase_of_ne s r hr, readFull_of_ne s r hr, readNoMode_of_ne s r hr⟩

end Sys2Proof.Machine
end

section
/-! SUPPORT. A step and its fetch (60_exceptions.md R550; 20_memory.md R94). -/

namespace Sys2Proof.Machine

/-! What runs a fetched word. -/

/-- A step that goes straight to its fetch runs the word fetched. -/
theorem step_of_fetch (s v : State) (w : Word) (hs : Fetches s) (hf : fetch s.pc { s with status := .ok } = .done w v) :
    step s = runWord w v := by
  obtain ⟨hn, hw, hfiq, hirq, hbp⟩ := hs
  rw [step_quiet s hn hw hfiq hirq hbp, hf]

theorem runWord_next (w : Word) (s t : State) (h : exec (decode s.cfg w) s.advancePc = .next t) :
    runWord w s = .next (endStep s.pc t) := by
  unfold runWord; rw [h]

theorem runWord_refused (w : Word) (s : State) (r : Refusal) (h : exec (decode s.cfg w) s.advancePc = .refused r) :
    runWord w s = .refused r := by
  unfold runWord; rw [h]

/-- Without a watchpoint hit the end of an iteration changes nothing. -/
theorem endStep_of_not_hit (a : Addr) (s : State) (h : s.watchHit = false) : endStep a s = s := by
  simp [endStep, h]

/-! Fetching. -/

theorem walk_fetch_pc (s : State) (p : Page) (hp : pageAt s.pages (s.pc.toNat / 4096) = some p)
    (hx : s.mode ∈ s.cfg.permCheckModes → permAllows s.cfg .fetch p.perm = true) : walk s .fetch s.pc true = some p :=
  (walk_eq_some ..).2 ⟨hp, hx, fun _ => pc_aligned s⟩

theorem fetch_ram (a : Addr) (s : State) (p : Perm) (h : walk s .fetch a true = some (.ram p)) :
    fetch a s = .done (memWord s.mem a.toNat) s := by
  simp [fetch, h, ramRead_eq]

theorem fetch_device (a : Addr) (s : State) (p : Perm) (dev : Nat) (h : walk s .fetch a true = some (.device p dev)) :
    fetch a s = devRead dev true a s := by
  simp [fetch, h]

/-- A word read of a device whose next reply succeeds. -/
theorem devRead_word_done (dev : Nat) (a : Addr) (s : State) (d : Device) (r : DeviceReply) (rest : List DeviceReply)
    (hd : s.devices[dev]? = some d) (hread : d.readWord = true) (hr : s.deviceReplies = r :: rest)
    (hre : r.reenters = false) (hfail : r.fails = false) :
    devRead dev true a s = .done r.value (replyInterrupt r
      { s with deviceReplies := rest, deviceCalls := .readWord dev (pageOffset a) :: s.deviceCalls }) := by
  simp [devRead, deviceAccess, callDevice, nextReply, hd, hread, hr, hre, hfail]

/-- A device's interrupt call writes the pins and the record only (60_exceptions.md R531). -/
theorem replyInterrupt_eq (r : DeviceReply) (s : State) :
    replyInterrupt r s = { s with
      pinIrq := (replyInterrupt r s).pinIrq, pinFiq := (replyInterrupt r s).pinFiq,
      lastInterrupt := (replyInterrupt r s).lastInterrupt } := by
  unfold replyInterrupt
  split
  · unfold State.interrupt
    split
    · rfl
    · split <;> rfl
  · rfl

theorem replyInterrupt_none (r : DeviceReply) (s : State) (h : r.interrupt = none) : replyInterrupt r s = s := by
  simp [replyInterrupt, h]

theorem pageOffset_eq_setWidth (a : Addr) : pageOffset a = a.setWidth 12 := by
  ext i hi
  simp [pageOffset]

/-- Settles O6: the step by `step_of_fetch`, the fetch by the walk of an aligned PC. -/
theorem stepRunsDecoded : Obligations.StepRunsDecoded := by
  unfold Obligations.StepRunsDecoded
  refine ⟨fun s v w hs hf => ?_, fun s p hp hx => ?_, fun s p dev d r rest hp hx hd hread hr hre hfail => ?_⟩
  · have hv : AccessEffect { s with status := .ok } v := ((fetch_leaves ..).of_done hf).1
    have hpc : v.pc = s.pc := hv.pc
    have hcfg : v.cfg = s.cfg := hv.cfg
    have hr15 : v.r15 = s.r15 := hv.r15
    have hstep := step_of_fetch s v w hs hf
    have hnext : ∀ t, exec (decode s.cfg w) v.advancePc = .next t → step s = .next (endStep s.pc t) := fun t ht => by
      rw [hstep, runWord_next w v t (by rwa [hcfg]), hpc]
    refine ⟨?_, ⟨?_, ?_⟩, rfl, fun t ht hwatch => ?_, fun t ht _ => hnext t ht, fun r hr => ?_⟩
    · rw [pc_advancePc, hpc]
    · rw [← hr15]; exact r15Full_psr ..
    · rw [← hr15]; exact r15Full_mode ..
    · rw [hnext t ht, endStep_of_not_hit _ t hwatch]
    · rw [hstep, runWord_refused w v r (by rwa [hcfg])]
  · exact fetch_ram _ s p (walk_fetch_pc s _ hp hx)
  · refine ⟨_, (fetch_device _ s p dev (walk_fetch_pc s _ hp hx)).trans
      (devRead_word_done dev s.pc s d r rest hd hread hr hre hfail), ?_, ?_, ?_, fun hi => ?_⟩
    · rw [replyInterrupt_eq, pageOffset_eq_setWidth]
    · rw [replyInterrupt_eq]
    · conv_lhs => rw [replyInterrupt_eq]
      rw [replyInterrupt_eq]
    · rw [replyInterrupt_none r _ hi]
      exact ⟨rfl, rfl, rfl⟩

end Sys2Proof.Machine
end

section
/-! SUPPORT. The effective-register table, and reading a register (10_state.md R32, R33, R35). -/

namespace Sys2Proof.Machine

/-! The effective-register table (10_state.md R32). -/

theorem finOfNat_eq_mk {n : Nat} [NeZero n] {k : Nat} (h : k < n) : Fin.ofNat n k = ⟨k, h⟩ :=
  Fin.ext (Nat.mod_eq_of_lt h)

theorem slotOf_table (m : Mode) (r : RegNum) :
    slotOf m r =
      if r.toNat = 15 then .r15
      else if m = .fiq ∧ 8 ≤ r.toNat then .fiq (Fin.ofNat 7 (r.toNat - 8))
      else if m = .irq ∧ 13 ≤ r.toNat then .irq (Fin.ofNat 2 (r.toNat - 13))
      else if m = .svc ∧ 13 ≤ r.toNat then .svc (Fin.ofNat 2 (r.toNat - 13))
      else .user (Fin.ofNat 15 r.toNat) := by
  by_cases h15 : r.toNat = 15
  · rw [if_pos h15]
    exact (slotOf_eq_r15 m r).2 (BitVec.eq_of_toNat_eq h15)
  · have h : r.toNat < 15 := by omega
    have h8 : r.toNat - 8 < 7 := by omega
    have h13 : r.toNat - 13 < 2 := by omega
    rw [if_neg h15, finOfNat_eq_mk h, finOfNat_eq_mk h8, finOfNat_eq_mk h13]
    cases m with
    | usr => simp [slotOf, h]
    | fiq => by_cases hb : r.toNat < 8 <;> simp [slotOf, h, hb, Nat.le_of_not_lt]
    | irq => by_cases hb : r.toNat < 13 <;> simp [slotOf, h, hb, Nat.le_of_not_lt]
    | svc => by_cases hb : r.toNat < 13 <;> simp [slotOf, h, hb, Nat.le_of_not_lt]

/-! Reading a register. -/

theorem reg_setReg (s : State) (r q : RegNum) (v : Word) (h : r ≠ 15#4) :
    (s.setReg r v).reg q = if q = r then v else s.reg q := by
  by_cases hq : q = r
  · rw [if_pos hq, hq, reg_setReg_self s r v h]
  · rw [if_neg hq, reg_setReg_ne s r q v h hq]

/-- After R15 is written a register is the same physical slot's content, under the mode now in R15 (10_state.md R33). -/
theorem reg_with_r15 (s : State) (q : RegNum) (v : Word) (h : q ≠ 15#4) :
    ({ s with r15 := v } : State).reg q = s.getSlot (slotOf (modeOfBits (v.extractLsb' 0 2)) q) :=
  getSlot_of_regs s { s with r15 := v } _ (by rwa [Ne, slotOf_eq_r15]) rfl

/-- Settles O7: the table by the columns of the modes, then a read after a write of a register and of R15. -/
theorem registerBanks : Obligations.RegisterBanks := by
  unfold Obligations.RegisterBanks
  exact ⟨slotOf_table, fun s r q v hr _ => ⟨reg_setReg s r q v hr, setReg_r15 s r v hr⟩, reg_with_r15⟩

end Sys2Proof.Machine
end

section
/-! SUPPORT. Data accesses: the walk in terms of the page table, and what memory holds (20_memory.md R93, R95, R96). -/

namespace Sys2Proof.Machine

/-! The walk of a data access. -/

/-- The kind of a data access. -/
def dataKind (write : Bool) : AccessKind :=
  if write then .write else .read

theorem permAllows_dataKind (cfg : Config) (write : Bool) (p : Perm) :
    permAllows cfg (dataKind write) p = if write then p.w else p.r := by
  cases write <;> rfl

theorem walk_dataKind_fault (s : State) (write byte : Bool) (a : Addr) (h : AccessFaults s write byte a) :
    walk s (dataKind write) a (!byte) = none := by
  refine Option.eq_none_iff_forall_ne_some.2 fun p hw => ?_
  obtain ⟨hpage, hperm, halign⟩ := (walk_eq_some ..).1 hw
  rcases h with habsent | ⟨q, hq, hmode, hright⟩ | ⟨rfl, hmis⟩
  · simp [habsent] at hpage
  · cases hpage.symm.trans hq
    have hallowed := hperm hmode
    rw [permAllows_dataKind, hright] at hallowed
    cases hallowed
  · exact hmis ((aligned_iff a).1 (halign rfl))

theorem walk_dataKind_of_permitted (s : State) (write byte : Bool) (a : Addr) (p : Page)
    (hpage : pageAt s.pages (a.toNat / 4096) = some p) (hperm : Permitted s (if write then p.perm.w else p.perm.r))
    (halign : byte = false → a.toNat % 4 = 0) : walk s (dataKind write) a (!byte) = some p := by
  refine (walk_eq_some ..).2 ⟨hpage, fun hmode => ?_, fun hword => ?_⟩
  · rw [permAllows_dataKind]; exact hperm hmode
  · exact (aligned_iff a).2 (halign (by simpa using hword))

theorem RamReadable.walk {s : State} {byte : Bool} {a : Addr} (h : RamReadable s byte a) :
    ∃ p, walk s .read a (!byte) = some (.ram p) := by
  obtain ⟨p, hpage, hperm, halign⟩ := h
  exact ⟨p, walk_dataKind_of_permitted s false byte a _ hpage hperm halign⟩

theorem RamWritable.walk {s : State} {byte : Bool} {a : Addr} (h : RamWritable s byte a) :
    ∃ p, walk s .write a (!byte) = some (.ram p) := by
  obtain ⟨p, hpage, hperm, halign⟩ := h
  exact ⟨p, walk_dataKind_of_permitted s true byte a _ hpage hperm halign⟩

theorem DeviceReadable.walk {s : State} {byte : Bool} {a : Addr} {dev : Nat} (h : DeviceReadable s byte a dev) :
    ∃ p, walk s .read a (!byte) = some (.device p dev) := by
  obtain ⟨p, hpage, hperm, halign⟩ := h
  exact ⟨p, walk_dataKind_of_permitted s false byte a _ hpage hperm halign⟩

theorem DeviceWritable.walk {s : State} {byte : Bool} {a : Addr} {dev : Nat} (h : DeviceWritable s byte a dev) :
    ∃ p, walk s .write a (!byte) = some (.device p dev) := by
  obtain ⟨p, hpage, hperm, halign⟩ := h
  exact ⟨p, walk_dataKind_of_permitted s true byte a _ hpage hperm halign⟩

theorem RamWritable.aligned {s : State} {byte : Bool} {a : Addr} (h : RamWritable s byte a) :
    (!byte) = true → a.extractLsb' 0 2 = 0#2 := by
  obtain ⟨p, hw⟩ := h.walk
  exact ((walk_eq_some ..).1 hw).2.2

/-! Faults. -/

theorem memRead_of_accessFaults (s : State) (byte : Bool) (a : Addr) (h : AccessFaults s false byte a) :
    memRead (!byte) a s = .abort s :=
  memRead_fault _ a s (walk_dataKind_fault s false byte a h)

theorem memWrite_of_accessFaults (s : State) (byte : Bool) (a : Addr) (v : Word) (h : AccessFaults s true byte a) :
    memWrite (!byte) a v s = .abort s :=
  memWrite_fault _ a v s (walk_dataKind_fault s true byte a h)

/-! RAM. -/

theorem toNat_ramRead (e : Endian) (m : List Host.Cell) (byte : Bool) (a : Addr) :
    (ramRead e m (!byte) a).toNat = ramNumber m byte a.toNat := by
  rw [ramRead_eq]
  cases byte with
  | false => exact toNat_wordOfBytes ..
  | true => exact (toNat_fieldAt _ 0 (by decide)).trans (Nat.mul_one _)

theorem stored_ramWrite (e : Endian) (m : List Host.Cell) (byte : Bool) (a : Addr) (v : Word)
    (hm : Memory.wf m = true) (ha : (!byte) = true → a.extractLsb' 0 2 = 0#2) :
    Stored m (ramWrite e m (!byte) a v) byte a.toNat v := by
  intro b
  rw [memByte_ramWrite e m (!byte) a v b hm ha]
  cases byte <;> rfl

theorem memRead_of_ramReadable (s : State) (byte : Bool) (a : Addr) (h : RamReadable s byte a) :
    ∃ w : Word, w.toNat = ramNumber s.mem byte a.toNat ∧
      memRead (!byte) a s = .done w { s with watchHit := s.watchHit || maskBit s.wr a } := by
  obtain ⟨p, hw⟩ := h.walk
  exact ⟨_, toNat_ramRead s.cfg.endian s.mem byte a, memRead_ram _ a s p hw⟩

theorem memWrite_of_ramWritable (s : State) (byte : Bool) (a : Addr) (v : Word) (hm : Memory.wf s.mem = true)
    (h : RamWritable s byte a) :
    ∃ m : List Host.Cell, Stored s.mem m byte a.toNat v ∧
      memWrite (!byte) a v s = .done () { s with mem := m, watchHit := s.watchHit || maskBit s.ww a } := by
  obtain ⟨p, hw⟩ := h.walk
  exact ⟨_, stored_ramWrite s.cfg.endian s.mem byte a v hm h.aligned, memWrite_ram _ a v s p hw⟩

/-! Device pages. A callback changes no watchpoint mask, so an access is marked by the masks it began with. -/

theorem memRead_device_done (word : Bool) (a : Addr) (s t : State) (p : Perm) (dev : Nat) (w : Word)
    (hw : walk s .read a word = some (.device p dev)) (hd : devRead dev word a s = .done w t) :
    memRead word a s = .done w { t with watchHit := t.watchHit || maskBit s.wr a } := by
  have hwr : t.wr = s.wr := ((devRead_leaves ..).of_done hd).1.wr
  rw [← hwr, ← markRead_eq]
  simp [memRead, hw, hd]

theorem memRead_device_abort (word : Bool) (a : Addr) (s t : State) (p : Perm) (dev : Nat)
    (hw : walk s .read a word = some (.device p dev)) (hd : devRead dev word a s = .abort t) :
    memRead word a s = .abort t := by
  simp [memRead, hw, hd]

theorem memWrite_device_done (word : Bool) (a : Addr) (v : Word) (s t : State) (p : Perm) (dev : Nat) (w : Word)
    (hw : walk s .write a word = some (.device p dev)) (hd : devWrite dev word a v s = .done w t) :
    memWrite word a v s = .done () { t with watchHit := t.watchHit || maskBit s.ww a } := by
  have hww : t.ww = s.ww := ((devWrite_leaves ..).of_done hd).1.ww
  rw [← hww, ← markWrite_eq]
  simp [memWrite, hw, hd]

theorem memWrite_device_abort (word : Bool) (a : Addr) (v : Word) (s t : State) (p : Perm) (dev : Nat)
    (hw : walk s .write a word = some (.device p dev)) (hd : devWrite dev word a v s = .abort t) :
    memWrite word a v s = .abort t := by
  simp [memWrite, hw, hd]

/-- Settles O18: by what the walk gives, a fault, a RAM page or a device page. -/
theorem memoryAccess : Obligations.MemoryAccess := by
  unfold Obligations.MemoryAccess
  intro byte a v s hm
  refine ⟨memRead_of_accessFaults s byte a, memWrite_of_accessFaults s byte a v, memRead_of_ramReadable s byte a,
    memWrite_of_ramWritable s byte a v hm, fun dev hdev => ?_, fun dev hdev => ?_⟩
  · obtain ⟨p, hw⟩ := hdev.walk
    exact ⟨fun w t => memRead_device_done _ a s t p dev w hw, fun t => memRead_device_abort _ a s t p dev hw⟩
  · obtain ⟨p, hw⟩ := hdev.walk
    exact ⟨fun w t => memWrite_device_done _ a v s t p dev w hw, fun t => memWrite_device_abort _ a v s t p dev hw⟩

end Sys2Proof.Machine
end

section
/-! SUPPORT. Data processing with Rd = 15 and S = 0 (40_data_processing.md R212). -/

namespace Sys2Proof.Machine

/-- The PC field of a word lies inside its low 26 bits, so a cut to an address keeps it. -/
theorem extractLsb'_setWidth_address (v : Word) :
    (v.setWidth addressBits).extractLsb' 2 24 = v.extractLsb' 2 24 := by
  ext i hi
  have h26 : 2 + i < 26 := by omega
  simp [h26]

/-- `WritePC` sets the PC field (10_state.md R46). -/
theorem writePc_field (s : State) (v : Word) : (s.writePc v).r15.extractLsb' 2 24 = v.extractLsb' 2 24 := by
  simp only [State.writePc, r15Full_field, extractLsb'_setWidth_address]

/-- `WritePC` keeps the flags, the masks and the mode (10_state.md R46). -/
theorem psrKept_writePc (s : State) (v : Word) : PsrKept s (s.writePc v) :=
  ⟨r15Full_psr .., r15Full_mode ..⟩

/-- With Rd = 15 and S = 0 an operation is `WritePC` of the table's result (40_data_processing.md R212). -/
theorem exec_dpInstr_pc (op : DpOp) (c : Cond) (rn : RegNum) (o : Op2) (s : State) (hc : s.passes c = true)
    (ht : ¬ IsTest op) :
    exec (dpInstr op c false rn 15#4 o) s =
      .next (s.writePc (tableResult op (s.readBase rn) (op2Value o s).1 s.flagC)) := by
  have hop := isTest_eq_false op ht
  rw [exec_dpInstr, whenPasses_of_pass _ _ _ hc, dpOutcome_eq_next _ _ _ _ _ _ (.inl hop)]
  simp [dpExec, hop, dpCompute_res]

/-- Settles O14: the instruction is `WritePC` of the table's result, which sets the PC field and keeps the PSR bits. -/
theorem resultToPc : Obligations.ResultToPc := by
  unfold Obligations.ResultToPc
  intro op c rn o s hc ht
  exact ⟨_, exec_dpInstr_pc op c rn o s hc ht, writePc_field s _, psrKept_writePc s _, rfl⟩

end Sys2Proof.Machine
end

section
/-! SUPPORT. The fields of an encoded word, format by format, and the decoder as the inverse of the encoder
(30_encoding.md R146 to R163). -/

namespace Sys2Proof

/-! The fields of a word that is a join of fields. -/

@[simp] theorem extractLsb'_fieldAt_self {n : Nat} (v : BitVec n) (lo : Nat) (h : lo + n ≤ 32) :
    (fieldAt v lo).extractLsb' lo n = v := by
  ext i hi
  have h32 : lo + i < 32 := by omega
  rw [BitVec.getElem_extractLsb', getLsbD_fieldAt]
  simp [h32, hi]

@[simp] theorem extractLsb'_fieldAt_disjoint {n : Nat} (v : BitVec n) (lo start len : Nat)
    (h : start + len ≤ lo ∨ lo + n ≤ start) : (fieldAt v lo).extractLsb' start len = 0#len := by
  ext i hi
  simp only [BitVec.getElem_extractLsb', getLsbD_fieldAt, BitVec.getElem_zero]
  rcases h with h | h
  · have hlo : ¬ lo ≤ start + i := by omega
    simp [hlo]
  · rw [BitVec.getLsbD_of_ge v _ (by omega), Bool.and_false]

/-- A field of a field of a word. -/
@[simp] theorem extractLsb'_extractLsb'_low (w : Word) (start len : Nat) (h : start + len ≤ 28) :
    (w.extractLsb' 0 28).extractLsb' start len = w.extractLsb' start len := by
  ext i hi
  have h28 : start + i < 28 := by omega
  simp [h28]

theorem getLsbD_low (w : Word) (i : Nat) (h : i < 28) : (w.extractLsb' 0 28).getLsbD i = w.getLsbD i := by
  simp [h]

/-! The values of the fields. -/

@[simp] theorem Cond.ofBits_toBits (c : Cond) : Cond.ofBits c.toBits = c := by cases c <;> rfl

@[simp] theorem Cond.toBits_ofBits (b : BitVec 4) : (Cond.ofBits b).toBits = b := by revert b; decide

@[simp] theorem ShiftType.ofBits_toBits (sh : ShiftType) : ShiftType.ofBits sh.toBits = sh := by cases sh <;> rfl

@[simp] theorem ShiftType.toBits_ofBits (b : BitVec 2) : (ShiftType.ofBits b).toBits = b := by revert b; decide

@[simp] theorem DpOp.ofBits_toBits (op : DpOp) : DpOp.ofBits op.toBits = op := by cases op <;> rfl

@[simp] theorem DpOp.toBits_ofBits (b : BitVec 4) : (DpOp.ofBits b).toBits = b := by revert b; decide

/-! The multiply space (30_encoding.md R147). -/

/-- A bit of a field with a known value. -/
theorem getLsbD_of_field {n : Nat} {x : BitVec n} {start len : Nat} {v : BitVec len} (h : x.extractLsb' start len = v)
    (i : Nat) (hi : i < len) : x.getLsbD (start + i) = v.getLsbD i := by
  rw [← h, BitVec.getLsbD_extractLsb']
  simp [hi]

theorem IsMultiply.inSpace {bits : BitVec 28} (h : IsMultiply bits) : InMultiplySpace bits := by
  obtain ⟨hclass, hlow⟩ := h
  refine ⟨?_, getLsbD_of_field hlow 3 (by decide), getLsbD_of_field hlow 0 (by decide)⟩
  ext i hi
  rw [BitVec.getElem_extractLsb', show 25 + i = 22 + (3 + i) by omega, getLsbD_of_field hclass _ (by omega)]
  simp

theorem IsSwap.inSpace {bits : BitVec 28} (h : IsSwap bits) : InMultiplySpace bits := by
  obtain ⟨hclass, -, hlow⟩ := h
  refine ⟨?_, getLsbD_of_field hlow 3 (by decide), getLsbD_of_field hlow 0 (by decide)⟩
  ext i hi
  rw [BitVec.getElem_extractLsb', show 25 + i = 23 + (2 + i) by omega, getLsbD_of_field hclass _ (by omega)]
  interval_cases i <;> simp

/-! Decoding each format. -/

@[simp] theorem getElem_bit (b : Bool) : (bit b)[0] = b := by cases b <;> rfl

theorem decode_encodeDpImm (cfg : Config) (op : DpOp) (c : Cond) (sf : Bool) (rn rd : RegNum) (rot : BitVec 4)
    (imm8 : BitVec 8) : decode cfg (encodeDpImm op c sf rn rd rot imm8) = .dpImm op c sf rn rd rot imm8 := by
  have h25 : (encodeDpImm op c sf rn rd rot imm8).getLsbD 25 = true := by
    simp (disch := omega) [encodeDpImm, getElem_fieldAt, BitVec.getLsbD_of_ge]
  have h0 : ¬ InMultiplySpace ((encodeDpImm op c sf rn rd rot imm8).extractLsb' 0 28) := by
    rintro ⟨hclass, -⟩
    have := getLsbD_of_field hclass 0 (by decide)
    simp_all
  rw [decode, decodeClass00, if_neg (mt IsMultiply.inSpace h0), if_neg (mt IsSwap.inSpace h0), if_pos h25]
  simp (disch := omega) [encodeDpImm, BitVec.extractLsb'_or, getElem_fieldAt, BitVec.getLsbD_of_ge]

theorem decode_encodeDpRsi (cfg : Config) (op : DpOp) (c : Cond) (sf : Bool) (rn rd : RegNum) (shamt : BitVec 5)
    (sh : ShiftType) (rm : RegNum) :
    decode cfg (encodeDpRsi op c sf rn rd shamt sh rm) = .dpRsi op c sf rn rd shamt sh rm := by
  have h4 : (encodeDpRsi op c sf rn rd shamt sh rm).getLsbD 4 = false := by
    simp (disch := omega) [encodeDpRsi, getElem_fieldAt, BitVec.getLsbD_of_ge]
  have h0 : ¬ InMultiplySpace ((encodeDpRsi op c sf rn rd shamt sh rm).extractLsb' 0 28) := by
    rintro ⟨-, -, hbit⟩
    rw [getLsbD_low _ 4 (by decide), h4] at hbit
    cases hbit
  rw [decode, decodeClass00, if_neg (mt IsMultiply.inSpace h0), if_neg (mt IsSwap.inSpace h0)]
  simp (disch := omega) [encodeDpRsi, BitVec.extractLsb'_or, getElem_fieldAt, BitVec.getLsbD_of_ge]

theorem decode_encodeDpRsr (cfg : Config) (op : DpOp) (c : Cond) (sf : Bool) (rn rd rs : RegNum) (sh : ShiftType)
    (rm : RegNum) : decode cfg (encodeDpRsr op c sf rn rd rs sh rm) = .dpRsr op c sf rn rd rs sh rm := by
  have h7 : (encodeDpRsr op c sf rn rd rs sh rm).getLsbD 7 = false := by
    simp (disch := omega) [encodeDpRsr, getElem_fieldAt, BitVec.getLsbD_of_ge]
  have h0 : ¬ InMultiplySpace ((encodeDpRsr op c sf rn rd rs sh rm).extractLsb' 0 28) := by
    rintro ⟨-, hbit, -⟩
    rw [getLsbD_low _ 7 (by decide), h7] at hbit
    cases hbit
  rw [decode, decodeClass00, if_neg (mt IsMultiply.inSpace h0), if_neg (mt IsSwap.inSpace h0)]
  simp (disch := omega) [encodeDpRsr, BitVec.extractLsb'_or, getElem_fieldAt, BitVec.getLsbD_of_ge]

theorem decode_encodeMul (cfg : Config) (acc : Bool) (c : Cond) (sf : Bool) (rd rn rs rm : RegNum) :
    decode cfg (encodeMul acc c sf rd rn rs rm) = if acc then .mla c sf rd rn rs rm else .mul c sf rd rn rs rm := by
  have hm : IsMultiply ((encodeMul acc c sf rd rn rs rm).extractLsb' 0 28) := by
    simp (disch := omega) [IsMultiply, encodeMul, BitVec.extractLsb'_or]
  rw [decode, decodeClass00, if_pos hm]
  simp (disch := omega) [encodeMul, BitVec.extractLsb'_or, getElem_fieldAt, BitVec.getLsbD_of_ge]

theorem decode_encodeSwap (cfg : Config) (byte : Bool) (c : Cond) (rn rd rm : RegNum) :
    decode cfg (encodeSwap byte c rn rd rm) = if byte then .swpb c rn rd rm else .swp c rn rd rm := by
  have hs : IsSwap ((encodeSwap byte c rn rd rm).extractLsb' 0 28) := by
    simp (disch := omega) [IsSwap, encodeSwap, BitVec.extractLsb'_or]
  have h24 : (encodeSwap byte c rn rd rm).getLsbD 24 = true := by
    simp (disch := omega) [encodeSwap, getElem_fieldAt, BitVec.getLsbD_of_ge]
  have hm : ¬ IsMultiply ((encodeSwap byte c rn rd rm).extractLsb' 0 28) := by
    rintro ⟨hclass, -⟩
    have hbit := getLsbD_of_field hclass 2 (by decide)
    rw [getLsbD_low _ 24 (by decide), h24] at hbit
    cases hbit
  rw [decode, decodeClass00, if_neg hm, if_pos hs]
  simp (disch := omega) [encodeSwap, BitVec.extractLsb'_or, getElem_fieldAt, BitVec.getLsbD_of_ge]

theorem decode_encodeSdtImm (cfg : Config) (load byte : Bool) (c : Cond) (pf uf wf : Bool) (rn rd : RegNum)
    (imm12 : BitVec 12) :
    decode cfg (encodeSdtImm load byte c pf uf wf rn rd imm12) = .sdtImm load byte c pf uf wf rn rd imm12 := by
  simp (disch := omega) [decode, decodeClass01, encodeSdtImm, BitVec.extractLsb'_or, getElem_fieldAt,
    BitVec.getLsbD_of_ge]

theorem decode_encodeSdtReg (cfg : Config) (load byte : Bool) (c : Cond) (pf uf wf : Bool) (rn rd : RegNum)
    (shamt : BitVec 5) (sh : ShiftType) (rm : RegNum) :
    decode cfg
      (encodeSdtReg load byte c pf uf wf rn rd shamt sh rm) = .sdtReg load byte c pf uf wf rn rd shamt sh rm := by
  simp (disch := omega) [decode, decodeClass01, encodeSdtReg, BitVec.extractLsb'_or, getElem_fieldAt,
    BitVec.getLsbD_of_ge]

theorem decode_encodeBdt (cfg : Config) (load : Bool) (c : Cond) (pf uf sf wf : Bool) (rn : RegNum)
    (reglist : BitVec 16) :
    decode cfg
      (encodeBdt load c pf uf sf wf rn reglist) =
        if load then .ldm c pf uf sf wf rn reglist else .stm c pf uf sf wf rn reglist := by
  simp (disch := omega) [decode, decodeClass10, encodeBdt, BitVec.extractLsb'_or, getElem_fieldAt,
    BitVec.getLsbD_of_ge]

theorem decode_encodeBranch (cfg : Config) (link : Bool) (c : Cond) (offset24 : BitVec 24) :
    decode cfg (encodeBranch link c offset24) = if link then .bl c offset24 else .b c offset24 := by
  simp (disch := omega) [decode, decodeClass10, encodeBranch, BitVec.extractLsb'_or, getElem_fieldAt,
    BitVec.getLsbD_of_ge]

theorem decode_encodeCdt (cfg : Config) (load : Bool) (c : Cond) (pf uf nf wf : Bool) (rn : RegNum)
    (crd : CrNum) (cp : BitVec 4) (offset8 : BitVec 8) :
    decode cfg
      (encodeCdt load c pf uf nf wf rn crd cp offset8) =
        if load then .ldc c pf uf nf wf rn crd cp offset8 else .stc c pf uf nf wf rn crd cp offset8 := by
  simp (disch := omega) [decode, decodeClass11, encodeCdt, BitVec.extractLsb'_or, getElem_fieldAt,
    BitVec.getLsbD_of_ge]

theorem decode_encodeCdp (cfg : Config) (c : Cond) (op1 : BitVec 4) (crn crd : CrNum) (cp : BitVec 4)
    (op2 : BitVec 3) (crm : CrNum) :
    decode cfg (encodeCdp c op1 crn crd cp op2 crm) = .cdp c op1 crn crd cp op2 crm := by
  simp (disch := omega) [decode, decodeClass11, encodeCdp, BitVec.extractLsb'_or, getElem_fieldAt,
    BitVec.getLsbD_of_ge]

theorem decode_encodeCrt (cfg : Config) (load : Bool) (c : Cond) (op1 : BitVec 3) (crn : CrNum) (rd : RegNum)
    (cp : BitVec 4) (op2 : BitVec 3) (crm : CrNum) :
    decode cfg
      (encodeCrt load c op1 crn rd cp op2 crm) =
        if load then .mrc c op1 crn rd cp op2 crm else .mcr c op1 crn rd cp op2 crm := by
  simp (disch := omega) [decode, decodeClass11, encodeCrt, BitVec.extractLsb'_or, getElem_fieldAt,
    BitVec.getLsbD_of_ge]

theorem decode_encodeSwi (cfg : Config) (c : Cond) (imm24 : BitVec 24) :
    decode cfg (encodeSwi c imm24) = if imm24 = cfg.bkptImm then .bkpt c imm24 else .swi c imm24 := by
  simp (disch := omega) [decode, decodeClass11, encodeSwi, BitVec.extractLsb'_or, getElem_fieldAt,
    BitVec.getLsbD_of_ge]

/-! The unallocated words (30_encoding.md R170). -/

theorem encodeRaw_low (c : Cond) (bits : BitVec 28) : (encodeRaw c bits).extractLsb' 0 28 = bits := by
  simp (disch := omega) [encodeRaw, BitVec.extractLsb'_or]

theorem encodeRaw_cond (c : Cond) (bits : BitVec 28) : (encodeRaw c bits).extractLsb' 28 4 = c.toBits := by
  simp (disch := omega) [encodeRaw, BitVec.extractLsb'_or]

theorem getLsbD_encodeRaw (c : Cond) (bits : BitVec 28) (i : Nat) (h : i < 28) :
    (encodeRaw c bits).getLsbD i = bits.getLsbD i := by
  rw [← getLsbD_low _ i h, encodeRaw_low]

theorem decode_encodeRaw_dp (cfg : Config) (c : Cond) (bits : BitVec 28) (h : IsUndefDp bits) :
    decode cfg (encodeRaw c bits) = .undefDp c bits := by
  obtain ⟨⟨hclass, h7, h4⟩, hmul, hswap⟩ := h
  have h27 : bits.getLsbD 27 = false := getLsbD_of_field hclass 2 (by decide)
  have h26 : bits.getLsbD 26 = false := getLsbD_of_field hclass 1 (by decide)
  have h25 : bits.getLsbD 25 = false := getLsbD_of_field hclass 0 (by decide)
  rw [decode, decodeClass00, encodeRaw_low, encodeRaw_cond, if_neg hmul, if_neg hswap]
  simp only [getLsbD_encodeRaw, Nat.reduceLT, h27, h26, h25, h7, h4]
  simp

theorem decode_encodeRaw_sdt (cfg : Config) (c : Cond) (bits : BitVec 28) (h : IsUndefSdt bits) :
    decode cfg (encodeRaw c bits) = .undefSdt c bits := by
  obtain ⟨hclass, h4⟩ := h
  have h27 : bits.getLsbD 27 = false := getLsbD_of_field hclass 2 (by decide)
  have h26 : bits.getLsbD 26 = true := getLsbD_of_field hclass 1 (by decide)
  have h25 : bits.getLsbD 25 = true := getLsbD_of_field hclass 0 (by decide)
  rw [decode, decodeClass01, encodeRaw_low, encodeRaw_cond]
  simp only [getLsbD_encodeRaw, Nat.reduceLT, h27, h26, h25, h4]
  simp

/-! The encoder by instruction shape. -/

namespace Machine

theorem encode_dpImm (op : DpOp) (c : Cond) (sf : Bool) (rn rd : RegNum) (rot : BitVec 4) (imm8 : BitVec 8) :
    encode (.dpImm op c sf rn rd rot imm8) = encodeDpImm op c sf rn rd rot imm8 := by
  cases op <;> rfl

theorem encode_dpRsi (op : DpOp) (c : Cond) (sf : Bool) (rn rd : RegNum) (shamt : BitVec 5) (sh : ShiftType)
    (rm : RegNum) : encode (.dpRsi op c sf rn rd shamt sh rm) = encodeDpRsi op c sf rn rd shamt sh rm := by
  cases op <;> rfl

theorem encode_dpRsr (op : DpOp) (c : Cond) (sf : Bool) (rn rd rs : RegNum) (sh : ShiftType) (rm : RegNum) :
    encode (.dpRsr op c sf rn rd rs sh rm) = encodeDpRsr op c sf rn rd rs sh rm := by
  cases op <;> rfl

theorem encode_sdtImm (load byte : Bool) (c : Cond) (pf uf wf : Bool) (rn rd : RegNum) (imm12 : BitVec 12) :
    encode (.sdtImm load byte c pf uf wf rn rd imm12) = encodeSdtImm load byte c pf uf wf rn rd imm12 := by
  cases load <;> cases byte <;> rfl

theorem encode_sdtReg (load byte : Bool) (c : Cond) (pf uf wf : Bool) (rn rd : RegNum) (shamt : BitVec 5)
    (sh : ShiftType) (rm : RegNum) :
    encode (.sdtReg load byte c pf uf wf rn rd shamt sh rm) =
      encodeSdtReg load byte c pf uf wf rn rd shamt sh rm := by
  cases load <;> cases byte <;> rfl

/-- Settles O2: format by format, from the fields of the encoded word. -/
theorem decodeEncode : Obligations.DecodeEncode := by
  unfold Obligations.DecodeEncode
  intro cfg i hwf
  cases shape i with
  | dpImm op c sf rn rd rot imm8 => rw [encode_dpImm, decode_encodeDpImm]
  | dpRsi op c sf rn rd shamt sh rm => rw [encode_dpRsi, decode_encodeDpRsi]
  | dpRsr op c sf rn rd rs sh rm => rw [encode_dpRsr, decode_encodeDpRsr]
  | mul c sf rd rn rs rm => exact decode_encodeMul cfg false c sf rd rn rs rm
  | mla c sf rd rn rs rm => exact decode_encodeMul cfg true c sf rd rn rs rm
  | swp c rn rd rm => exact decode_encodeSwap cfg false c rn rd rm
  | swpb c rn rd rm => exact decode_encodeSwap cfg true c rn rd rm
  | undefDp c bits => exact decode_encodeRaw_dp cfg c bits (of_decide_eq_true hwf)
  | sdtImm load byte c pf uf wf rn rd imm12 => rw [encode_sdtImm, decode_encodeSdtImm]
  | sdtReg load byte c pf uf wf rn rd shamt sh rm => rw [encode_sdtReg, decode_encodeSdtReg]
  | undefSdt c bits => exact decode_encodeRaw_sdt cfg c bits (of_decide_eq_true hwf)
  | stm c pf uf sf wf rn reglist => exact decode_encodeBdt cfg false c pf uf sf wf rn reglist
  | ldm c pf uf sf wf rn reglist => exact decode_encodeBdt cfg true c pf uf sf wf rn reglist
  | b c offset24 => exact decode_encodeBranch cfg false c offset24
  | bl c offset24 => exact decode_encodeBranch cfg true c offset24
  | stc c pf uf nf wf rn crd cp offset8 => exact decode_encodeCdt cfg false c pf uf nf wf rn crd cp offset8
  | ldc c pf uf nf wf rn crd cp offset8 => exact decode_encodeCdt cfg true c pf uf nf wf rn crd cp offset8
  | cdp c op1 crn crd cp op2 crm => exact decode_encodeCdp cfg c op1 crn crd cp op2 crm
  | mcr c op1 crn rd cp op2 crm => exact decode_encodeCrt cfg false c op1 crn rd cp op2 crm
  | mrc c op1 crn rd cp op2 crm => exact decode_encodeCrt cfg true c op1 crn rd cp op2 crm
  | swi c imm24 => exact (decode_encodeSwi cfg c imm24).trans (if_neg (of_decide_eq_true hwf))
  | bkpt c imm24 => exact (decode_encodeSwi cfg c imm24).trans (if_pos (of_decide_eq_true hwf))

end Machine

end Sys2Proof
end

section
/-! SUPPORT. The encoder as the inverse of the decoder: a word is the join of its fields
  (30_encoding.md R146 to R163). -/

namespace Sys2Proof

/-! Adjacent fields of a word. -/

/-- Two adjacent fields are one field. -/
theorem fieldAt_join (w : Word) {hi b lo a : Nat} (h : hi = lo + a) (h32 : hi + b ≤ 32) :
    fieldAt (w.extractLsb' hi b) hi ||| fieldAt (w.extractLsb' lo a) lo = fieldAt (w.extractLsb' lo (a + b)) lo := by
  subst h
  ext i hi
  simp only [BitVec.getElem_or, getElem_fieldAt, BitVec.getLsbD_extractLsb']
  by_cases hlo : lo ≤ i
  · by_cases hmid : lo + a ≤ i
    · have e1 : lo + a + (i - (lo + a)) = i := by omega
      have e2 : lo + (i - lo) = i := by omega
      have h1 : ¬ i - lo < a := by omega
      have h2 : i - (lo + a) < b ↔ i - lo < a + b := by omega
      simp [hlo, hmid, e1, e2, h1, h2]
    · have h1 : i - lo < a := by omega
      have h2 : i - lo < a + b := by omega
      simp [hlo, hmid, h1, h2]
  · have hmid : ¬ lo + a ≤ i := by omega
    simp [hlo, hmid]

/-- A field above a field of zeros reaches down over it. -/
theorem fieldAt_over_zeros (w : Word) {hi b lo a : Nat} (hz : w.extractLsb' lo a = 0#a) (h : hi = lo + a)
    (h32 : hi + b ≤ 32) : fieldAt (w.extractLsb' hi b) hi = fieldAt (w.extractLsb' lo (a + b)) lo := by
  rw [← fieldAt_join w h h32, hz]
  simp [fieldAt]

/-- The field of all 32 bits is the word. -/
theorem fieldAt_whole (w : Word) {n : Nat} (h : n = 32) : fieldAt (w.extractLsb' 0 n) 0 = w := by
  subst h
  ext i hi
  simp [getElem_fieldAt, hi]

theorem bit_getLsbD (w : Word) (i : Nat) : bit (w.getLsbD i) = w.extractLsb' i 1 := by
  ext j hj
  have : j = 0 := by omega
  subst this
  simp

/-- Three bits as a field. -/
theorem extractLsb'_of_bits (w : Word) (lo : Nat) (v : BitVec 3) (h2 : w.getLsbD (lo + 2) = v.getLsbD 2)
    (h1 : w.getLsbD (lo + 1) = v.getLsbD 1) (h0 : w.getLsbD lo = v.getLsbD 0) : w.extractLsb' lo 3 = v := by
  ext i hi
  rw [BitVec.getElem_extractLsb', ← BitVec.getLsbD_eq_getElem]
  interval_cases i
  · exact h0
  · exact h1
  · exact h2

theorem extractLsb'_of_bit (w : Word) (i : Nat) (b : Bool) (h : w.getLsbD i = b) : w.extractLsb' i 1 = bit b := by
  rw [← bit_getLsbD, h]

/-! The word of the fields of a word, format by format. -/

theorem encodeDpImm_fields (w : Word) (h : w.extractLsb' 25 3 = 0b001#3) :
    encodeDpImm (DpOp.ofBits (w.extractLsb' 21 4)) (Cond.ofBits (w.extractLsb' 28 4)) (w.getLsbD 20)
      (w.extractLsb' 16 4) (w.extractLsb' 12 4) (w.extractLsb' 8 4) (w.extractLsb' 0 8) = w := by
  have htag : fieldAt 1#1 25 = fieldAt (w.extractLsb' 25 3) 25 := by rw [h]; rfl
  rw [encodeDpImm, htag]
  simp (disch := omega) only [Cond.toBits_ofBits, DpOp.toBits_ofBits, bit_getLsbD, fieldAt_join, fieldAt_whole]

theorem encodeMul_fields (w : Word) (h : w.extractLsb' 22 6 = 0#6) (h' : w.extractLsb' 4 4 = 0b1001#4) :
    encodeMul (w.getLsbD 21) (Cond.ofBits (w.extractLsb' 28 4)) (w.getLsbD 20)
      (w.extractLsb' 16 4) (w.extractLsb' 12 4) (w.extractLsb' 8 4) (w.extractLsb' 0 4) = w := by
  rw [encodeMul, ← h', Cond.toBits_ofBits, fieldAt_over_zeros w h rfl (by decide)]
  simp (disch := omega) only [bit_getLsbD, fieldAt_join, fieldAt_whole]

theorem encodeDpRsi_fields (w : Word) (h : w.extractLsb' 25 3 = 0#3) (h4 : w.getLsbD 4 = false) :
    encodeDpRsi (DpOp.ofBits (w.extractLsb' 21 4)) (Cond.ofBits (w.extractLsb' 28 4)) (w.getLsbD 20)
      (w.extractLsb' 16 4) (w.extractLsb' 12 4) (w.extractLsb' 7 5) (ShiftType.ofBits (w.extractLsb' 5 2))
      (w.extractLsb' 0 4) = w := by
  rw [encodeDpRsi, Cond.toBits_ofBits, ShiftType.toBits_ofBits, fieldAt_over_zeros w h rfl (by decide),
    fieldAt_over_zeros w (hi := 5) (b := 2) (extractLsb'_of_bit w 4 false h4) rfl (by decide)]
  simp (disch := omega) only [DpOp.toBits_ofBits, bit_getLsbD, fieldAt_join, fieldAt_whole]

theorem encodeDpRsr_fields (w : Word) (h : w.extractLsb' 25 3 = 0#3) (h7 : w.getLsbD 7 = false)
    (h4 : w.getLsbD 4 = true) :
    encodeDpRsr (DpOp.ofBits (w.extractLsb' 21 4)) (Cond.ofBits (w.extractLsb' 28 4)) (w.getLsbD 20)
      (w.extractLsb' 16 4) (w.extractLsb' 12 4) (w.extractLsb' 8 4) (ShiftType.ofBits (w.extractLsb' 5 2))
      (w.extractLsb' 0 4) = w := by
  rw [encodeDpRsr, Cond.toBits_ofBits, fieldAt_over_zeros w h rfl (by decide),
    fieldAt_over_zeros w (hi := 8) (b := 4) (extractLsb'_of_bit w 7 false h7) rfl (by decide),
    show 1#1 = w.extractLsb' 4 1 from (extractLsb'_of_bit w 4 true h4).symm]
  simp (disch := omega) only [DpOp.toBits_ofBits, ShiftType.toBits_ofBits, bit_getLsbD, fieldAt_join, fieldAt_whole]

theorem encodeSwap_fields (w : Word) (h : w.extractLsb' 23 5 = 0b00010#5) (h' : w.extractLsb' 20 2 = 0#2)
    (h'' : w.extractLsb' 4 8 = 0b00001001#8) :
    encodeSwap (w.getLsbD 22) (Cond.ofBits (w.extractLsb' 28 4)) (w.extractLsb' 16 4) (w.extractLsb' 12 4)
      (w.extractLsb' 0 4) = w := by
  rw [encodeSwap, ← h, ← h'', bit_getLsbD, fieldAt_over_zeros w (hi := 22) (b := 1) h' rfl (by decide)]
  simp (disch := omega) only [Cond.toBits_ofBits, fieldAt_join, fieldAt_whole]

theorem encodeSdtImm_fields (w : Word) (h : w.extractLsb' 25 3 = 0b010#3) :
    encodeSdtImm (w.getLsbD 20) (w.getLsbD 22) (Cond.ofBits (w.extractLsb' 28 4)) (w.getLsbD 24) (w.getLsbD 23)
      (w.getLsbD 21) (w.extractLsb' 16 4) (w.extractLsb' 12 4) (w.extractLsb' 0 12) = w := by
  have htag : fieldAt 0b01#2 26 = fieldAt (w.extractLsb' 25 3) 25 := by rw [h]; rfl
  rw [encodeSdtImm, htag]
  simp (disch := omega) only [Cond.toBits_ofBits, bit_getLsbD, fieldAt_join, fieldAt_whole]

theorem encodeSdtReg_fields (w : Word) (h : w.extractLsb' 25 3 = 0b011#3) (h4 : w.getLsbD 4 = false) :
    encodeSdtReg (w.getLsbD 20) (w.getLsbD 22) (Cond.ofBits (w.extractLsb' 28 4)) (w.getLsbD 24) (w.getLsbD 23)
      (w.getLsbD 21) (w.extractLsb' 16 4) (w.extractLsb' 12 4) (w.extractLsb' 7 5)
      (ShiftType.ofBits (w.extractLsb' 5 2)) (w.extractLsb' 0 4) = w := by
  rw [encodeSdtReg, ← h, ShiftType.toBits_ofBits,
    fieldAt_over_zeros w (hi := 5) (b := 2) (extractLsb'_of_bit w 4 false h4) rfl (by decide)]
  simp (disch := omega) only [Cond.toBits_ofBits, bit_getLsbD, fieldAt_join, fieldAt_whole]

theorem encodeBdt_fields (w : Word) (h : w.extractLsb' 25 3 = 0b100#3) :
    encodeBdt (w.getLsbD 20) (Cond.ofBits (w.extractLsb' 28 4)) (w.getLsbD 24) (w.getLsbD 23) (w.getLsbD 22)
      (w.getLsbD 21) (w.extractLsb' 16 4) (w.extractLsb' 0 16) = w := by
  rw [encodeBdt, ← h]
  simp (disch := omega) only [Cond.toBits_ofBits, bit_getLsbD, fieldAt_join, fieldAt_whole]

theorem encodeBranch_fields (w : Word) (h : w.extractLsb' 25 3 = 0b101#3) :
    encodeBranch (w.getLsbD 24) (Cond.ofBits (w.extractLsb' 28 4)) (w.extractLsb' 0 24) = w := by
  rw [encodeBranch, ← h]
  simp (disch := omega) only [Cond.toBits_ofBits, bit_getLsbD, fieldAt_join, fieldAt_whole]

theorem encodeCdt_fields (w : Word) (h : w.extractLsb' 25 3 = 0b110#3) :
    encodeCdt (w.getLsbD 20) (Cond.ofBits (w.extractLsb' 28 4)) (w.getLsbD 24) (w.getLsbD 23) (w.getLsbD 22)
      (w.getLsbD 21) (w.extractLsb' 16 4) (w.extractLsb' 12 4) (w.extractLsb' 8 4) (w.extractLsb' 0 8) = w := by
  rw [encodeCdt, ← h]
  simp (disch := omega) only [Cond.toBits_ofBits, bit_getLsbD, fieldAt_join, fieldAt_whole]

theorem encodeCdp_fields (w : Word) (h : w.extractLsb' 25 3 = 0b111#3) (h24 : w.getLsbD 24 = false)
    (h4 : w.getLsbD 4 = false) :
    encodeCdp (Cond.ofBits (w.extractLsb' 28 4)) (w.extractLsb' 20 4) (w.extractLsb' 16 4) (w.extractLsb' 12 4)
      (w.extractLsb' 8 4) (w.extractLsb' 5 3) (w.extractLsb' 0 4) = w := by
  have htag : fieldAt 0b1110#4 24 = fieldAt (w.extractLsb' 25 3) 25 ||| fieldAt (w.extractLsb' 24 1) 24 := by
    rw [h, extractLsb'_of_bit w 24 _ h24]; rfl
  rw [encodeCdp, htag, fieldAt_over_zeros w (hi := 5) (b := 3) (extractLsb'_of_bit w 4 false h4) rfl (by decide),
    ← BitVec.or_assoc]
  simp (disch := omega) only [Cond.toBits_ofBits, fieldAt_join, fieldAt_whole]

theorem encodeCrt_fields (w : Word) (h : w.extractLsb' 25 3 = 0b111#3) (h24 : w.getLsbD 24 = false)
    (h4 : w.getLsbD 4 = true) :
    encodeCrt (w.getLsbD 20) (Cond.ofBits (w.extractLsb' 28 4)) (w.extractLsb' 21 3) (w.extractLsb' 16 4)
      (w.extractLsb' 12 4) (w.extractLsb' 8 4) (w.extractLsb' 5 3) (w.extractLsb' 0 4) = w := by
  have htag : fieldAt 0b1110#4 24 = fieldAt (w.extractLsb' 25 3) 25 ||| fieldAt (w.extractLsb' 24 1) 24 := by
    rw [h, extractLsb'_of_bit w 24 _ h24]; rfl
  rw [encodeCrt, htag, ← BitVec.or_assoc, show 1#1 = w.extractLsb' 4 1 from (extractLsb'_of_bit w 4 true h4).symm]
  simp (disch := omega) only [Cond.toBits_ofBits, bit_getLsbD, fieldAt_join, fieldAt_whole]

theorem encodeSwi_fields (w : Word) (h : w.extractLsb' 25 3 = 0b111#3) (h24 : w.getLsbD 24 = true) :
    encodeSwi (Cond.ofBits (w.extractLsb' 28 4)) (w.extractLsb' 0 24) = w := by
  have htag : fieldAt 0b1111#4 24 = fieldAt (w.extractLsb' 25 3) 25 ||| fieldAt (w.extractLsb' 24 1) 24 := by
    rw [h, extractLsb'_of_bit w 24 _ h24]; rfl
  rw [encodeSwi, htag, ← BitVec.or_assoc]
  simp (disch := omega) only [Cond.toBits_ofBits, fieldAt_join, fieldAt_whole]

theorem encodeRaw_fields (w : Word) : encodeRaw (Cond.ofBits (w.extractLsb' 28 4)) (w.extractLsb' 0 28) = w := by
  simp (disch := omega) only [encodeRaw, Cond.toBits_ofBits, fieldAt_join, fieldAt_whole]

namespace Machine

/-- A word's instruction has the word as its encoding and is well formed. -/
def DecodesTo (cfg : Config) (w : Word) (i : Instr) : Prop :=
  encode i = w ∧ i.wf cfg = true

/-! The well-formed shapes that share one encoder. -/

theorem wf_dpImm (cfg : Config) (op : DpOp) (c : Cond) (sf : Bool) (rn rd : RegNum) (rot : BitVec 4)
    (imm8 : BitVec 8) :
    (Instr.dpImm op c sf rn rd rot imm8).wf cfg = true := by
  cases op <;> rfl

theorem wf_dpRsi (cfg : Config) (op : DpOp) (c : Cond) (sf : Bool) (rn rd : RegNum) (shamt : BitVec 5)
    (sh : ShiftType)
    (rm : RegNum) : (Instr.dpRsi op c sf rn rd shamt sh rm).wf cfg = true := by
  cases op <;> rfl

theorem wf_dpRsr (cfg : Config) (op : DpOp) (c : Cond) (sf : Bool) (rn rd rs : RegNum) (sh : ShiftType)
    (rm : RegNum) :
    (Instr.dpRsr op c sf rn rd rs sh rm).wf cfg = true := by
  cases op <;> rfl

theorem wf_sdtImm (cfg : Config) (load byte : Bool) (c : Cond) (pf uf wf : Bool) (rn rd : RegNum)
    (imm12 : BitVec 12) :
    (Instr.sdtImm load byte c pf uf wf rn rd imm12).wf cfg = true := by
  cases load <;> cases byte <;> rfl

theorem wf_sdtReg (cfg : Config) (load byte : Bool) (c : Cond) (pf uf wf : Bool) (rn rd : RegNum) (shamt : BitVec 5)
    (sh : ShiftType) (rm : RegNum) : (Instr.sdtReg load byte c pf uf wf rn rd shamt sh rm).wf cfg = true := by
  cases load <;> cases byte <;> rfl

/-! The classes (30_encoding.md R147 to R150). -/

theorem decodeClass00_decodesTo (cfg : Config) (w : Word) (h27 : w.getLsbD 27 = false) (h26 : w.getLsbD 26 = false) :
    DecodesTo cfg w (decodeClass00 (Cond.ofBits (w.extractLsb' 28 4)) w) := by
  unfold decodeClass00
  split
  · rename_i hmul
    obtain ⟨hclass, hlow⟩ := hmul
    rw [extractLsb'_extractLsb'_low _ _ _ (by decide)] at hclass hlow
    have hw := encodeMul_fields w hclass hlow
    split <;> rename_i h21 <;> simp only [h21] at hw <;> exact ⟨hw, rfl⟩
  split
  · rename_i hswap
    obtain ⟨hclass, hmid, hlow⟩ := hswap
    rw [extractLsb'_extractLsb'_low _ _ _ (by decide)] at hclass hmid hlow
    have hw := encodeSwap_fields w hclass hmid hlow
    split <;> rename_i h22 <;> simp only [h22] at hw <;> exact ⟨hw, rfl⟩
  rename_i hmul hswap
  split
  · rename_i h25
    exact ⟨(encode_dpImm ..).trans (encodeDpImm_fields w (extractLsb'_of_bits w 25 _ h27 h26 h25)), wf_dpImm ..⟩
  rename_i h25
  have hclass : w.extractLsb' 25 3 = 0#3 := extractLsb'_of_bits w 25 _ h27 h26 (by simpa using h25)
  split
  · rename_i h4
    exact ⟨(encode_dpRsi ..).trans (encodeDpRsi_fields w hclass (by simpa using h4)), wf_dpRsi ..⟩
  rename_i h4
  have h4 : w.getLsbD 4 = true := by simpa using h4
  split
  · rename_i h7
    exact ⟨(encode_dpRsr ..).trans (encodeDpRsr_fields w hclass (by simpa using h7) h4), wf_dpRsr ..⟩
  · rename_i h7
    refine ⟨encodeRaw_fields w, decide_eq_true ⟨⟨?_, ?_, ?_⟩, hmul, hswap⟩⟩
    · rwa [extractLsb'_extractLsb'_low _ _ _ (by decide)]
    · rw [getLsbD_low _ _ (by decide)]; simpa using h7
    · rwa [getLsbD_low _ _ (by decide)]

theorem decodeClass01_decodesTo (cfg : Config) (w : Word) (h27 : w.getLsbD 27 = false) (h26 : w.getLsbD 26 = true) :
    DecodesTo cfg w (decodeClass01 (Cond.ofBits (w.extractLsb' 28 4)) w) := by
  unfold decodeClass01
  split
  · rename_i h25
    have hclass : w.extractLsb' 25 3 = 0b010#3 := extractLsb'_of_bits w 25 _ h27 h26 (by simpa using h25)
    exact ⟨(encode_sdtImm ..).trans (encodeSdtImm_fields w hclass), wf_sdtImm ..⟩
  rename_i h25
  have hclass : w.extractLsb' 25 3 = 0b011#3 := extractLsb'_of_bits w 25 _ h27 h26 (by simpa using h25)
  split
  · rename_i h4
    exact ⟨(encode_sdtReg ..).trans (encodeSdtReg_fields w hclass (by simpa using h4)), wf_sdtReg ..⟩
  · rename_i h4
    refine ⟨encodeRaw_fields w, decide_eq_true ⟨?_, ?_⟩⟩
    · rwa [extractLsb'_extractLsb'_low _ _ _ (by decide)]
    · rw [getLsbD_low _ _ (by decide)]; simpa using h4

theorem decodeClass10_decodesTo (cfg : Config) (w : Word) (h27 : w.getLsbD 27 = true) (h26 : w.getLsbD 26 = false) :
    DecodesTo cfg w (decodeClass10 (Cond.ofBits (w.extractLsb' 28 4)) w) := by
  unfold decodeClass10
  split
  · rename_i h25
    have hw := encodeBranch_fields w (extractLsb'_of_bits w 25 _ h27 h26 h25)
    split <;> rename_i h24 <;> simp only [h24] at hw <;> exact ⟨hw, rfl⟩
  · rename_i h25
    have hw := encodeBdt_fields w (extractLsb'_of_bits w 25 _ h27 h26 (by simpa using h25))
    split <;> rename_i h20 <;> simp only [h20] at hw <;> exact ⟨hw, rfl⟩

theorem decodeClass11_decodesTo (cfg : Config) (w : Word) (h27 : w.getLsbD 27 = true) (h26 : w.getLsbD 26 = true) :
    DecodesTo cfg w (decodeClass11 cfg (Cond.ofBits (w.extractLsb' 28 4)) w) := by
  unfold decodeClass11
  split
  · rename_i h25
    have hw := encodeCdt_fields w (extractLsb'_of_bits w 25 _ h27 h26 (by simpa using h25))
    split <;> rename_i h20 <;> simp only [h20] at hw <;> exact ⟨hw, rfl⟩
  rename_i h25
  have hclass : w.extractLsb' 25 3 = 0b111#3 := extractLsb'_of_bits w 25 _ h27 h26 (by simpa using h25)
  split
  · rename_i h24
    have hw := encodeSwi_fields w hclass h24
    split <;> rename_i himm
    · exact ⟨hw, decide_eq_true himm⟩
    · exact ⟨hw, decide_eq_true himm⟩
  rename_i h24
  have h24 : w.getLsbD 24 = false := by simpa using h24
  split
  · rename_i h4
    exact ⟨encodeCdp_fields w hclass h24 (by simpa using h4), rfl⟩
  · rename_i h4
    have hw := encodeCrt_fields w hclass h24 (by simpa using h4)
    split <;> rename_i h20 <;> simp only [h20] at hw <;> exact ⟨hw, rfl⟩

/-- Settles O3: class by class, a word is the join of the fields it is decoded into. -/
theorem encodeDecode : Obligations.EncodeDecode := by
  unfold Obligations.EncodeDecode
  intro cfg w
  change DecodesTo cfg w (decode cfg w)
  unfold decode
  dsimp only
  split <;> rename_i h27 <;> split <;> rename_i h26
  · exact decodeClass00_decodesTo cfg w (by simpa using h27) (by simpa using h26)
  · exact decodeClass01_decodesTo cfg w (by simpa using h27) (by simpa using h26)
  · exact decodeClass10_decodesTo cfg w (by simpa using h27) (by simpa using h26)
  · exact decodeClass11_decodesTo cfg w (by simpa using h27) (by simpa using h26)

end Machine

end Sys2Proof
end

section
/-! SUPPORT. What an instruction can do to RAM
  (20_memory.md R92, R96), and what it can do at all: one case analysis over
every instruction, for the whole-machine statements. -/

namespace Sys2Proof.Machine

/-! RAM pages that USR may not write. -/

/-- The machine runs in USR mode, which is checked, and byte `b` is of a RAM page that USR may not write. -/
def Guarded (s : State) (b : Nat) : Prop :=
  s.mode = .usr ∧ .usr ∈ s.cfg.permCheckModes ∧ ∃ p : Perm, pageAt s.pages (b / 4096) = some (.ram p) ∧ p.w = false

theorem Guarded.of_access {s t : State} {b : Nat} (h : Guarded s b) (k : AccessEffect s t) : Guarded t b := by
  unfold Guarded
  rw [k.mode, k.cfg, k.pages]
  exact h

/-- From `s` to `t` RAM stays in canonical form and keeps every guarded byte. -/
def RamSafe (s t : State) : Prop :=
  Memory.wf s.mem = true → Memory.wf t.mem = true ∧ ∀ b, Guarded s b → memByte t.mem b = memByte s.mem b

namespace RamSafe

theorem of_mem {s t u : State} (h : RamSafe s t) (k : u.mem = t.mem) : RamSafe s u := by
  unfold RamSafe
  rwa [k]

theorem refl (s : State) : RamSafe s s := fun h => ⟨h, fun _ _ => rfl⟩

theorem trans {s t u : State} (hst : ∀ b, Guarded s b → Guarded t b) (h : RamSafe s t) (k : RamSafe t u) :
    RamSafe s u := by
  intro hm
  obtain ⟨hwf, hkept⟩ := h hm
  obtain ⟨hwf', hkept'⟩ := k hwf
  exact ⟨hwf', fun b hb => (hkept' b (hst b hb)).trans (hkept b hb)⟩

theorem trans_access {s t u : State} (hst : AccessEffect s t) (h : RamSafe s t) (k : RamSafe t u) : RamSafe s u :=
  trans (fun _ hb => hb.of_access hst) h k

end RamSafe

theorem Access.Leaves.and {α : Type} {r : Access α} {P Q : State → Prop} (h : r.Leaves P) (k : r.Leaves Q) :
    r.Leaves fun t => P t ∧ Q t := by
  cases r with
  | done v t | abort t => exact ⟨h, k⟩
  | refused x => trivial

/-- The bytes of an access lie in the page of its address. -/
theorem pageOf_accessed {a : Addr} {word : Bool} {b : Nat} (ha : word = true → a.extractLsb' 0 2 = 0#2)
    (hlo : a.toNat ≤ b) (hhi : b < a.toNat + if word then 4 else 1) : b / 4096 = a.toNat / 4096 := by
  cases word with
  | true =>
    have halign := (aligned_iff a).1 (ha rfl)
    simp only [if_true] at hhi
    omega
  | false =>
    have hb : b = a.toNat := by simp only [Bool.false_eq_true, if_false] at hhi; omega
    rw [hb]

/-- A write the walk allows stores no guarded byte. -/
theorem ramWrite_ramSafe (word : Bool) (a : Addr) (v : Word) (s t : State) (p : Perm)
    (hw : walk s .write a word = some (.ram p))
      (ht : t.mem = ramWrite s.cfg.endian s.mem word a v) : RamSafe s t := by
  obtain ⟨hpage, hperm, halign⟩ := (walk_eq_some ..).1 hw
  intro hm
  rw [ht]
  refine ⟨ramWrite_wf _ _ _ _ _ hm halign, fun b hb => ?_⟩
  obtain ⟨hmode, hchecked, q, hq, hright⟩ := hb
  rw [memByte_ramWrite _ _ _ _ _ _ hm halign, if_neg]
  rintro ⟨hlo, hhi⟩
  rw [pageOf_accessed halign hlo hhi, hpage] at hq
  cases hq
  have hallowed : p.w = true := hperm (by rwa [hmode])
  rw [hright] at hallowed
  cases hallowed

theorem memWrite_ramSafe (word : Bool) (a : Addr) (v : Word) (s : State) : (memWrite word a v s).Leaves
    (RamSafe s) := by
  refine (memWrite_leaves word a v s).imp fun t ht => ?_
  rcases ht.2 with hmem | ⟨⟨p, hw⟩, hmem⟩
  · exact (RamSafe.refl s).of_mem hmem
  · exact ramWrite_ramSafe word a v s t p hw hmem

/-- The store of a single transfer, a T form's too: in USR, or as in USR. -/
theorem sdtAccess_memWrite_ramSafe (pf wf word : Bool) (a : Addr) (v : Word) (s : State) :
    (sdtAccess pf wf (memWrite word a v) s).Leaves fun t => AccessEffect s t ∧ RamSafe s t := by
  refine sdtAccess_leaves pf wf _ s RamSafe (fun u => (memWrite_effect ..).and
    (memWrite_ramSafe ..)) fun t ht hm => ?_
  obtain ⟨hwf, hkept⟩ := ht hm
  refine ⟨hwf, fun b hb => hkept b ⟨?_, hb.2⟩⟩
  rw [State.mode, show (inUser s).r15.extractLsb' 0 2 = 0#2 from ?_]
  · rfl
  · simp (disch := omega) [inUser, BitVec.extractLsb'_or, modeBits]

theorem stmLoop_ramSafe (ub wf : Bool) (rn : RegNum) (base : Word) (l : List RegNum) (a : Word) (first : Bool)
    (s : State) : (stmLoop ub wf rn base l a first s).Leaves (RamSafe s) := by
  induction l generalizing a first s with
  | nil => exact RamSafe.refl s
  | cons i l ih =>
    rw [stmLoop]
    have hwrite := (memWrite_effect true (busAddr a) (stmValue ub wf first rn i base s) s).and (memWrite_ramSafe ..)
    split <;> rename_i hw
    · obtain ⟨heffect, hsafe⟩ := hwrite.of_done hw
      exact (ih ..).imp fun _ => RamSafe.trans_access heffect hsafe
    · exact (hwrite.of_abort hw).2
    · trivial

/-! What each instruction can do. -/

/-- STR, STRB, STM, SWP and SWPB. -/
def IsStore (i : Instr) : Prop :=
  (∃ (byte : Bool) (c : Cond) (pf uf wf : Bool) (rn rd : RegNum) (o : Offset),
    i = sdtInstr false byte c pf uf wf rn rd o) ∨
  (∃ (c : Cond) (pf uf sf wf : Bool) (rn : RegNum) (reglist : BitVec 16), i = .stm c pf uf sf wf rn reglist) ∨
  (∃ (byte : Bool) (c : Cond) (rn rd rm : RegNum), i = swapInstr byte c rn rd rm)

/-- `t` differs from `s` in nothing but what `ExecEffect` names, and not in RAM. -/
def NoStore (s t : State) : Prop :=
  ExecEffect s t ∧ t.mem = s.mem

/-- `t` differs from `s` in nothing but what `ExecEffect` names, and keeps every guarded byte of RAM. -/
def Stores (s t : State) : Prop :=
  ExecEffect s t ∧ RamSafe s t

namespace NoStore

theorem refl (s : State) : NoStore s s := ⟨.refl s, rfl⟩

theorem trans {s t u : State} (h : NoStore s t) (k : NoStore t u) : NoStore s u :=
  ⟨h.1.trans k.1, k.2.trans h.2⟩

theorem stores {s t : State} (h : NoStore s t) : Stores s t := ⟨h.1, (RamSafe.refl s).of_mem h.2⟩

theorem of_raise (k : ExcKind) (link : Addr) (s : State) : NoStore s (raise k link s) := ⟨.of_raise .., raise_mem ..⟩

theorem of_raiseHere (k : ExcKind) (s : State) : NoStore s (raiseHere k s) := .of_raise ..

theorem of_setReg (s : State) (r : RegNum) (v : Word) : NoStore s (s.setReg r v) := ⟨.of_setReg .., by simp⟩

theorem of_setCr (s : State) (k : Coproc) (n : CrNum) (v : Word) : NoStore s (s.setCr k n v) := by
  cases k <;> exact ⟨rfl, rfl⟩

theorem of_read {s t : State} (h : AccessEffect s t ∧ t.mem = s.mem) : NoStore s t := ⟨.of_access h.1, h.2⟩

end NoStore

namespace Stores

theorem trans {s t u : State} (h : Stores s t) (k : NoStore t u) : Stores s u :=
  ⟨h.1.trans k.1, h.2.of_mem k.2⟩

theorem of_access {s t : State} (h : AccessEffect s t) (k : RamSafe s t) : Stores s t := ⟨.of_access h, k⟩

end Stores

theorem dpExec_noStore (op : DpOp) (sf : Bool) (rn rd : RegNum) (op2 : Word × Bool) (s : State) :
    NoStore s (dpExec op sf rn rd op2 s) := by
  rw [dpExec_frame]
  exact ⟨rfl, rfl⟩

theorem mulWrite_noStore (sf : Bool) (rd : RegNum) (res : Word) (s : State) : NoStore s (mulWrite sf rd res s) := by
  unfold mulWrite
  split
  · exact (NoStore.of_setReg s rd res).trans ⟨rfl, rfl⟩
  · exact .of_setReg s rd res

theorem takeUndefined_noStore (o : UndefOutcome) (s : State) : NoStore s (takeUndefined o s) := by
  cases o with
  | exception => exact .of_raiseHere ..
  | unknownOpcode => exact ⟨rfl, rfl⟩

theorem resolveBreakpoint_noStore (halt link : Addr) (s : State) : NoStore s (resolveBreakpoint halt link s) := by
  unfold resolveBreakpoint
  split
  · exact ⟨rfl, rfl⟩
  · exact ⟨.of_enter .., enter_mem ..⟩

theorem swapExec_stores (byte : Bool) (rn rd rm : RegNum) (s t : State) (h : swapExec byte rn rd rm s = .next t) :
    Stores s t := by
  unfold swapExec at h
  split at h
  · cases h
  split at h
  · cases h; exact (NoStore.of_raiseHere ..).stores
  split at h <;> rename_i hr
  · cases h
  · cases h
    exact ((NoStore.of_read ((memRead_leaves ..).of_abort hr)).trans (.of_raiseHere ..)).stores
  · obtain ⟨hread, hmem⟩ := (memRead_leaves ..).of_done hr
    have hwrite := ((memWrite_effect (!byte) (busAddr (s.reg rn)) (swapValue byte rm s) _).and
      (memWrite_ramSafe ..)).imp
      fun _ k => Stores.of_access (hread.trans k.1) (RamSafe.trans_access hread ((RamSafe.refl s).of_mem hmem) k.2)
    split at h <;> rename_i hw
    · cases h
    · cases h; exact (hwrite.of_abort hw).trans (.of_raiseHere ..)
    · cases h; exact (hwrite.of_done hw).trans (.of_setReg ..)

theorem sdtLoadInto_noStore (rd : RegNum) (v : Word) (s : State) : NoStore s (sdtLoadInto rd v s) := by
  unfold sdtLoadInto
  split
  · exact ⟨rfl, rfl⟩
  · exact .of_setReg s rd v

theorem sdtTransfer_load_noStore (byte pf uf wf : Bool) (rn rd : RegNum) (offset : Word) (s t : State)
    (h : sdtTransfer true byte pf uf wf rn rd offset s = .next t) : NoStore s t := by
  unfold sdtTransfer at h
  dsimp only at h
  split at h
  · cases h; exact .of_raiseHere ..
  rw [if_pos rfl] at h
  have hread := sdtAccess_leaves pf wf _ s (fun s t => t.mem = s.mem)
    (memRead_leaves (!byte) (busAddr (transferAddr pf uf (s.readBase rn) offset))) fun _ k => k
  split at h <;> rename_i hr
  · cases h
    exact ((NoStore.of_read (hread.of_done hr)).trans (sdtWriteback_effect ..)).trans (sdtLoadInto_noStore ..)
  · cases h
    exact (NoStore.of_read (hread.of_abort hr)).trans (sdtAbort_effect ..)
  · cases h

theorem sdtTransfer_store_stores (byte pf uf wf : Bool) (rn rd : RegNum) (offset : Word) (s t : State)
    (h : sdtTransfer false byte pf uf wf rn rd offset s = .next t) : Stores s t := by
  unfold sdtTransfer at h
  dsimp only at h
  split at h
  · cases h; exact (NoStore.of_raiseHere ..).stores
  rw [if_neg (by decide)] at h
  have hwrite := (sdtAccess_memWrite_ramSafe pf wf (!byte) (busAddr (transferAddr pf uf (s.readBase rn) offset))
    (sdtStoreValue byte rd s) s).imp fun _ k => Stores.of_access k.1 k.2
  split at h <;> rename_i hw
  · cases h; exact (hwrite.of_done hw).trans (sdtWriteback_effect ..)
  · cases h; exact (hwrite.of_abort hw).trans (sdtAbort_effect ..)
  · cases h

/-- A single transfer that completes got past its refusals. -/
theorem sdtImm_next {load byte pf uf wf : Bool} {rn rd : RegNum} {imm12 : BitVec 12} {s t : State}
    (h : sdtImm load byte pf uf wf rn rd imm12 s = .next t) :
    sdtTransfer load byte pf uf wf rn rd (offsetImm imm12) s = .next t := by
  unfold sdtImm at h
  split at h
  · cases h
  · exact h

theorem sdtReg_next {load byte pf uf wf : Bool} {rn rd : RegNum} {shamt : BitVec 5} {sh : ShiftType} {rm : RegNum}
    {s t : State} (h : sdtReg load byte pf uf wf rn rd shamt sh rm s = .next t) :
    sdtTransfer load byte pf uf wf rn rd (offsetReg shamt sh rm s) s = .next t := by
  unfold sdtReg at h
  split at h
  · cases h
  · split at h
    · cases h
    · exact h

/-- A block transfer ends in what its loop leaves, with a data abort if an access aborted. -/
theorem bdtFinish_next {link : Addr} {r : Access Unit} {P : State → Prop} {t : State} (hr : r.Leaves P)
    (h : bdtFinish link r = .next t) : ∃ u, P u ∧ NoStore u t := by
  cases r with
  | done v u => cases h; exact ⟨_, hr, .refl _⟩
  | abort u => cases h; exact ⟨_, hr, .of_raise ..⟩
  | refused x => cases h

theorem bdtExec_load_noStore (pf uf sf wf : Bool) (rn : RegNum) (reglist : BitVec 16) (s t : State)
    (h : bdtExec true pf uf sf wf rn reglist s = .next t) : NoStore s t := by
  unfold bdtExec at h
  split at h
  · cases h
  obtain ⟨u, hloop, hend⟩ := bdtFinish_next (ldmLoop_leaves ..) h
  exact (NoStore.trans (bdtWriteback_effect ..) hloop).trans hend

theorem bdtExec_store_stores (pf uf sf wf : Bool) (rn : RegNum) (reglist : BitVec 16) (s t : State)
    (h : bdtExec false pf uf sf wf rn reglist s = .next t) : Stores s t := by
  unfold bdtExec at h
  split at h
  · cases h
  rename_i hr
  obtain ⟨hwb, hmem⟩ := bdtWriteback_effect uf wf rn reglist s
  obtain ⟨hmode, -⟩ := bdtWriteback_privilege uf wf rn reglist s (bdtRefusal_none hr)
  have hguard : ∀ b, Guarded s b → Guarded (bdtWriteback uf wf rn reglist s) b := fun b hb => by
    rw [Guarded, hmode, hwb.cfg, (congrArg State.pages hwb :)]
    exact hb
  obtain ⟨u, ⟨hloop, hsafe⟩, hend⟩ := bdtFinish_next ((stmLoop_leaves ..).and (stmLoop_ramSafe ..)) h
  exact Stores.trans ⟨hwb.trans (.of_access hloop), ((RamSafe.refl s).of_mem hmem).trans hguard hsafe⟩ hend

/-! The hardware manager. -/

theorem coprocOf_hwmgr {cfg : Config} {cp : BitVec 4} (h : coprocOf cfg cp = some .hwmgr) : cp = cfg.cpHwmgr := by
  unfold coprocOf at h
  split at h
  · assumption
  · split at h
    · cases h
    · split at h <;> cases h

theorem hwDeviceOp_noStore (crn crd crm : CrNum) (s t : State)
    (h : hwDeviceOp crn crd crm s = .next t) : NoStore s t := by
  unfold hwDeviceOp at h
  split at h
  · cases h; exact .of_setCr ..
  split at h
  · cases h; exact .of_setCr ..
  dsimp only at h
  have hcall := (callDevice_leaves (.operation (hwCr s crd).toNat (hwCr s crn) (hwCr s crm)) s).imp fun _ k =>
    NoStore.of_read ⟨k.1, k.2.1⟩
  split at h <;> rename_i hc
  · cases h; exact (hcall.of_done hc).trans (.of_setCr ..)
  · cases h; exact (hcall.of_abort hc).trans (.of_setCr ..)
  · cases h

/-- Every operation but the mapping request leaves the page table and RAM alone. -/
theorem hwmgrOperation_cases (op1 : BitVec 4) (crn crd crm : CrNum) (s t : State)
    (h : hwmgrOperation op1 crn crd crm s = .next t) :
    NoStore s t ∨ (op1 = s.cfg.opMapMemory ∧ t = hwMapMemory crn crd crm s) := by
  unfold hwmgrOperation at h
  split at h
  · cases h; exact .inl (.of_setCr s .hwmgr crd _)
  split at h
  · rename_i hop
    cases h; exact .inr ⟨hop, rfl⟩
  left
  split at h
  · cases h
    unfold hwDeviceId
    split <;> exact .of_setCr ..
  split at h
  · cases h; exact (NoStore.of_setCr s .hwmgr crd _).trans (.of_setCr _ .hwmgr crn _)
  split at h
  · cases h
    unfold hwWait
    split <;> exact ⟨rfl, rfl⟩
  split at h
  · cases h; exact .of_setCr s .hwmgr crd _
  split at h
  · exact hwDeviceOp_noStore crn crd crm s t h
  · cases h; exact .refl s

/-! Every instruction. -/

/-- What an instruction that completes can do: everything `ExecEffect` names but RAM; RAM too if it is a store; or a mapping
request. -/
def InstrEffect (i : Instr) (s t : State) : Prop :=
  NoStore s t ∨ (IsStore i ∧ Stores s t) ∨
  ∃ (c : Cond) (crn crd : CrNum) (op2 : BitVec 3) (crm : CrNum),
    i = hwCdp s.cfg c s.cfg.opMapMemory crn crd op2 crm ∧ t = hwMapMemory crn crd crm s

theorem InstrEffect.of_whenPasses {i : Instr} {c : Cond} {s t : State} {o : Host.Outcome State Fault Refusal}
    (h : whenPasses c s o = .next t) (ho : o = .next t → InstrEffect i s t) : InstrEffect i s t := by
  rcases whenPasses_next c s t o h with rfl | ⟨-, h⟩
  · exact .inl (.refl t)
  · exact ho h

theorem exec_effect (i : Instr) (s t : State) (h : exec i s = .next t) : InstrEffect i s t := by
  cases shape i with
  | dpImm op c sf rn rd rot imm8 =>
    rw [exec_dpImm] at h
    refine .of_whenPasses h fun h => .inl ?_
    rw [dpOutcome_next _ _ _ _ _ _ _ h]
    exact dpExec_noStore ..
  | dpRsi op c sf rn rd shamt sh rm =>
    rw [exec_dpRsi] at h
    refine .of_whenPasses h fun h => .inl ?_
    rw [dpOutcome_next _ _ _ _ _ _ _ h]
    exact dpExec_noStore ..
  | dpRsr op c sf rn rd rs sh rm =>
    rw [exec_dpRsr] at h
    refine .of_whenPasses h fun h => .inl ?_
    rw [dpOutcome_next _ _ _ _ _ _ _ h]
    exact dpExec_noStore ..
  | mul c sf rd rn rs rm | mla c sf rd rn rs rm =>
    refine .of_whenPasses h fun h => .inl ?_
    split at h
    · cases h
    · cases h; exact mulWrite_noStore ..
  | swp c rn rd rm =>
    exact .of_whenPasses h fun h => .inr (.inl ⟨.inr
      (.inr ⟨false, c, rn, rd, rm, rfl⟩), swapExec_stores _ _ _ _ s t h⟩)
  | swpb c rn rd rm =>
    exact .of_whenPasses h fun h => .inr (.inl ⟨.inr
      (.inr ⟨true, c, rn, rd, rm, rfl⟩), swapExec_stores _ _ _ _ s t h⟩)
  | sdtImm load byte c pf uf wf rn rd imm12 =>
    rw [exec_sdtImm] at h
    refine .of_whenPasses h fun h => ?_
    cases load with
    | true => exact .inl (sdtTransfer_load_noStore _ _ _ _ _ _ _ s t (sdtImm_next h))
    | false => exact .inr (.inl ⟨.inl ⟨byte, c, pf, uf, wf, rn, rd, .imm imm12, rfl⟩,
        sdtTransfer_store_stores _ _ _ _ _ _ _ s t (sdtImm_next h)⟩)
  | sdtReg load byte c pf uf wf rn rd shamt sh rm =>
    rw [exec_sdtReg] at h
    refine .of_whenPasses h fun h => ?_
    cases load with
    | true => exact .inl (sdtTransfer_load_noStore _ _ _ _ _ _ _ s t (sdtReg_next h))
    | false => exact .inr (.inl ⟨.inl ⟨byte, c, pf, uf, wf, rn, rd, .reg shamt sh rm, rfl⟩,
        sdtTransfer_store_stores _ _ _ _ _ _ _ s t (sdtReg_next h)⟩)
  | stm c pf uf sf wf rn reglist =>
    exact .of_whenPasses h fun h => .inr (.inl ⟨.inr (.inl ⟨c, pf, uf, sf, wf, rn, reglist, rfl⟩),
      bdtExec_store_stores _ _ _ _ _ _ s t h⟩)
  | ldm c pf uf sf wf rn reglist =>
    exact .of_whenPasses h fun h => .inl (bdtExec_load_noStore _ _ _ _ _ _ s t h)
  | b c offset24 =>
    refine .of_whenPasses h fun h => .inl ?_
    cases h; exact ⟨rfl, rfl⟩
  | bl c offset24 =>
    refine .of_whenPasses h fun h => .inl ?_
    cases h; exact (NoStore.of_setReg s 14#4 _).trans ⟨rfl, rfl⟩
  | cdp c op1 crn crd cp op2 crm =>
    refine .of_whenPasses h fun hop => ?_
    split at hop <;> rename_i hcp
    · cases hop; exact .inl (.refl s)
    · rcases hwmgrOperation_cases op1 crn crd crm s t hop with hno | ⟨rfl, ht⟩
      · exact .inl hno
      · obtain rfl := coprocOf_hwmgr hcp
        exact .inr (.inr ⟨c, crn, crd, op2, crm, rfl, ht⟩)
    · cases hop
    · cases hop
  | mcr c op1 crn rd cp op2 crm =>
    refine .of_whenPasses h fun h => .inl ?_
    split at h
    · cases h; exact .refl s
    · cases h; exact .of_setCr ..
  | mrc c op1 crn rd cp op2 crm =>
    refine .of_whenPasses h fun h => .inl ?_
    split at h
    · cases h; exact .refl s
    · split at h
      · cases h
      · cases h; exact .of_setReg ..
  | swi c imm24 =>
    refine .of_whenPasses h fun h => .inl ?_
    cases h; exact .of_raiseHere ..
  | bkpt c imm24 =>
    refine .of_whenPasses h fun h => .inl ?_
    cases h; exact NoStore.trans (t := { s with watchHit := false }) ⟨rfl, rfl⟩ (resolveBreakpoint_noStore ..)
  | undefDp c bits | undefSdt c bits | stc c pf uf nf wf rn crd cp offset8 | ldc c pf uf nf wf rn crd cp offset8 =>
    refine .of_whenPasses h fun h => .inl ?_
    cases h; exact takeUndefined_noStore ..

/-! The mapping request. -/

theorem hwMapMemory_mem (crn crd crm : CrNum) (s : State) : (hwMapMemory crn crd crm s).mem = s.mem :=
  (congrArg State.mem (hwMapMemory_eq crn crd crm s) :)

/-- Settles O59: only a store changes RAM, and no store changes a guarded byte. -/
theorem userCannotWrite : Obligations.UserCannotWrite := by
  unfold Obligations.UserCannotWrite
  intro i s t b p hm hmode hchecked hb hp hw h
  rcases exec_effect i s t h with ⟨-, hmem⟩ | ⟨-, -, hsafe⟩ | ⟨c, crn, crd, op2, crm, -, rfl⟩
  · rw [hmem]
  · exact (hsafe hm).2 b ⟨hmode, hchecked, p, hp, hw⟩
  · rw [hwMapMemory_mem]

/-- An element replaced by one with the same image leaves the image of a list. -/
theorem map_set_of_eq {α β : Type} {f : α → β} {l : List α} {k : Nat} {hk : k < l.length} {v : α} (h : f v = f l[k]) :
    (l.set k v).map f = l.map f := by
  rw [List.map_set, h, ← List.getElem_map f (h := by simpa using hk), List.set_getElem_self]

/-- A mapping request changes of the registry only where a device is mapped (20_memory.md R124). -/
theorem hwMapMemory_identities (crn crd crm : CrNum) (s : State) :
    (hwMapMemory crn crd crm s).devices.map (fun d => { d with range := none }) =
      s.devices.map (fun d => { d with range := none }) := by
  have hdev : ∀ k start stop, (mapMemory k start stop s).2.devices.map (fun d => { d with range := none }) =
      s.devices.map (fun d => { d with range := none }) := by
    intro k start stop
    unfold mapMemory
    split
    · rfl
    rename_i d hd
    split
    · rfl
    split
    · rfl
    split
    · rfl
    · obtain ⟨hk, rfl⟩ := List.getElem?_eq_some_iff.1 hd
      exact map_set_of_eq rfl
  exact hdev ..

/-- Settles O60: `ExecEffect` names no field the host owns, and a mapping request keeps all but the page table. -/
theorem hostOwnedState : Obligations.HostOwnedState := by
  unfold Obligations.HostOwnedState
  intro i s t h
  rcases exec_effect i s t h with ⟨he, hmem⟩ | ⟨hstore, he, -⟩ | ⟨c, crn, crd, op2, crm, hi, rfl⟩
  · rw [he]
    exact ⟨rfl, rfl, rfl, rfl, rfl, rfl, .inl rfl, .inl hmem⟩
  · rw [he]
    exact ⟨rfl, rfl, rfl, rfl, rfl, rfl, .inl rfl, .inr hstore⟩
  · refine ⟨?_, ?_, ?_, ?_, ?_, hwMapMemory_identities .., .inr ⟨c, crn, crd, op2, crm, hi⟩, .inl
    (hwMapMemory_mem ..)⟩ <;>
      rw [hwMapMemory_eq]

end Sys2Proof.Machine
end

section
/-! SUPPORT. Good states: reset is one, and every step keeps it (20_memory.md R82, R121; 60_exceptions.md R550). -/

namespace Sys2Proof.Machine

/-! The mapping request. -/

/-- Claiming pages of the space keeps the page table in form. -/
theorem claimPages_wf (cfg : Config) (dev : Nat) (l : List Nat) (hl : ∀ i ∈ l, i < 16384) (t : List (Nat × Page))
    (h : pagesWf t = true) : pagesWf (l.foldl (claimPage cfg dev) t) = true := by
  induction l generalizing t with
  | nil => exact h
  | cons i l ih =>
    rw [List.forall_mem_cons] at hl
    refine ih hl.2 _ ?_
    unfold claimPage
    split <;> exact setPage_wf _ _ _ hl.1 h

/-- A page of the table after pages are claimed was there before, or is the device's. -/
theorem claimPages_mem (cfg : Config) (dev : Nat) (l : List Nat) (t : List (Nat × Page)) :
    ∀ x ∈ l.foldl (claimPage cfg dev) t, x ∈ t ∨ ∃ p, x.2 = .device p dev := by
  induction l generalizing t with
  | nil => exact fun x hx => .inl hx
  | cons i l ih =>
    have hclaim : ∀ x ∈ claimPage cfg dev t i, x ∈ t ∨ ∃ p, x.2 = .device p dev := by
      intro x hx
      unfold claimPage at hx
      split at hx <;> rcases setPage_mem _ _ _ x hx with rfl | hx
      · exact .inr ⟨_, rfl⟩
      · exact .inl hx
      · exact .inr ⟨_, rfl⟩
      · exact .inl hx
    intro x hx
    rcases ih _ x hx with hx | hx
    · exact hclaim x hx
    · exact .inr hx

theorem devicesRegistered_iff (s : State) :
    devicesRegistered s = true ↔ ∀ x ∈ s.pages, ∀ p dev, x.2 = .device p dev → dev < s.devices.length := by
  rw [devicesRegistered, List.all_eq_true]
  refine forall₂_congr fun x _ => ?_
  cases x.2 <;> simp

/-- A mapping request keeps the page table in form and its device pages registered, and adds no device. -/
theorem mapMemory_good (k start stop : Nat) (s : State) (hp : pagesWf s.pages = true) (hd : devicesRegistered s = true) :
    pagesWf (mapMemory k start stop s).2.pages = true ∧ devicesRegistered (mapMemory k start stop s).2 = true ∧
    (mapMemory k start stop s).2.devices.length = s.devices.length := by
  unfold mapMemory
  split
  · exact ⟨hp, hd, rfl⟩
  rename_i d hk
  split
  · exact ⟨hp, hd, rfl⟩
  rename_i hrange
  split
  · exact ⟨hp, hd, rfl⟩
  split
  · exact ⟨hp, hd, rfl⟩
  refine ⟨claimPages_wf _ _ _ (fun i hi => ?_) _ hp, (devicesRegistered_iff _).2 fun x hx p dev hdev => ?_,
    List.length_set⟩
  · have hstop : stop ≤ 67108864 := by
      simp only [rangeOk, Bool.not_eq_true, Bool.not_eq_false', Bool.and_eq_true, decide_eq_true_eq] at hrange
      exact hrange.2
    have := ((mem_pagesOfRange i start stop).1 hi).2
    omega
  · rw [List.length_set]
    rcases claimPages_mem _ _ _ _ x hx with hx | ⟨q, hq⟩
    · exact (devicesRegistered_iff s).1 hd x hx p dev hdev
    · rw [hq] at hdev
      cases hdev
      exact (List.getElem?_eq_some_iff.1 hk).1

/-! Good states. -/

/-- A state is good but for a watchpoint hit left over. -/
def GoodButWatch (s : State) : Prop :=
  ({ s with watchHit := false } : State).Good

namespace GoodButWatch

theorem of_good {s : State} (h : s.Good) : GoodButWatch s := { h with watch := rfl }

theorem good {s : State} (h : GoodButWatch s) (hw : s.watchHit = false) : s.Good := { h with watch := hw }

theorem of_effect {s t : State} (h : GoodButWatch s) (he : ExecEffect s t) (hm : Memory.wf t.mem = true) :
    GoodButWatch t := by
  have hg : ({ s with mem := t.mem, watchHit := false } : State).Good := { h with mem := hm }
  rw [GoodButWatch, he]
  exact { hg with watch := rfl }

theorem of_noStore {s t : State} (h : GoodButWatch s) (k : NoStore s t) : GoodButWatch t :=
  h.of_effect k.1 (by rw [k.2]; exact h.mem)

theorem of_access {s t : State} (h : GoodButWatch s) (k : AccessEffect s t ∧ t.mem = s.mem) : GoodButWatch t :=
  h.of_noStore (.of_read k)

theorem of_mapping {s : State} (crn crd crm : CrNum) (h : GoodButWatch s) : GoodButWatch (hwMapMemory crn crd crm s) := by
  obtain ⟨hp, hd, hlen⟩ := mapMemory_good (hwCr s crn).toNat (hwCr s crm).toNat (hwCr s crd).toNat s h.pages h.registered
  have heq := hwMapMemory_eq crn crd crm s
  refine ⟨?_, ?_, ?_, ?_, ?_, ?_, ?_, ?_, rfl⟩
  · rw [heq]; exact h.cfg
  · rw [heq]; exact h.mem
  · exact hp
  · rw [heq]; exact h.bp
  · rw [heq]; exact h.wr
  · rw [heq]; exact h.ww
  · exact hd
  · have hcap : s.devices.length ≤ s.cfg.maxHwDevices := h.capacity
    have hcfg : (hwMapMemory crn crd crm s).cfg = s.cfg := by rw [heq]
    exact (hlen.le.trans hcap).trans (by rw [hcfg])

/-- Every instruction that completes keeps a state good but for its watchpoint hit. -/
theorem of_exec {i : Instr} {s t : State} (h : GoodButWatch s) (k : exec i s = .next t) : GoodButWatch t := by
  rcases exec_effect i s t k with hno | ⟨-, he, hsafe⟩ | ⟨c, crn, crd, op2, crm, -, rfl⟩
  · exact h.of_noStore hno
  · exact h.of_effect he (hsafe h.mem).1
  · exact h.of_mapping crn crd crm

end GoodButWatch

/-! The parts of a step. -/

theorem beginStep_good (s : State) (h : s.Good) : (beginStep s).Good := by
  have hb : GoodButWatch { s with waiting := false, status := .ok } := (GoodButWatch.of_good h).of_noStore ⟨rfl, rfl⟩
  have hw : ({ s with waiting := false, status := .ok } : State).watchHit = false := h.watch
  unfold beginStep sampleInterrupts
  split
  · exact (hb.of_noStore ⟨.of_enter .., enter_mem ..⟩).good ((enter_watchHit ..).trans hw)
  · split
    · exact (hb.of_noStore ⟨.of_enter .., enter_mem ..⟩).good ((enter_watchHit ..).trans hw)
    · exact hb.good hw

theorem resolveBreakpoint_watchHit (halt link : Addr) (s : State) :
    (resolveBreakpoint halt link s).watchHit = s.watchHit := by
  unfold resolveBreakpoint
  split
  · rfl
  · exact enter_watchHit ..

theorem resolveBreakpoint_good (halt link : Addr) (s : State) (h : s.Good) : (resolveBreakpoint halt link s).Good :=
  ((GoodButWatch.of_good h).of_noStore (resolveBreakpoint_noStore ..)).good
    ((resolveBreakpoint_watchHit ..).trans h.watch)

/-- The end of an iteration leaves no watchpoint hit. -/
theorem endStep_good (a : Addr) (s : State) (h : GoodButWatch s) : (endStep a s).Good := by
  unfold endStep
  split
  · exact resolveBreakpoint_good _ _ _ h
  · rename_i hw
    exact h.good (by simpa using hw)

/-- Settles O57: by the ways a step can end, the instruction's from `exec_effect`. -/
theorem goodKept : Obligations.GoodKept := by
  unfold Obligations.GoodKept
  intro s t hs h
  have hb := beginStep_good s hs
  rcases step_next s t h with rfl | rfl | rfl | ⟨u, hu, rfl⟩ | ⟨w, u, v, hu, hv, rfl⟩
  · exact { hs with }
  · exact { hs with }
  · exact resolveBreakpoint_good _ _ _ hb
  · obtain ⟨heffect, hmem, hwatch⟩ := (fetch_leaves ..).of_abort hu
    refine (((GoodButWatch.of_good hb).of_access ⟨heffect, hmem⟩).of_noStore ⟨.of_enter .., enter_mem ..⟩).good ?_
    exact (enter_watchHit ..).trans (hwatch.trans hb.watch)
  · obtain ⟨heffect, hmem, -⟩ := (fetch_leaves ..).of_done hu
    have hadvance : GoodButWatch u.advancePc :=
      ((GoodButWatch.of_good hb).of_access ⟨heffect, hmem⟩).of_noStore ⟨rfl, rfl⟩
    exact endStep_good _ _ (hadvance.of_exec hv)

/-- Settles O56: the reset state is one state, and each part of the invariant is decided on it. -/
theorem goodAtReset : Obligations.GoodAtReset := by
  unfold Obligations.GoodAtReset
  exact ⟨by decide, rfl, by decide, rfl, rfl, rfl, by decide, by decide, rfl⟩

end Sys2Proof.Machine
end

section
/-! SUPPORT. Conditions, the barrel shifter, data processing into a register and multiply
  (30_encoding.md R141 to R145;
40_data_processing.md R201 to R215; 41_multiply.md). -/

namespace Sys2Proof.Machine

/-! Conditions. -/

/-- Every instruction stands behind its condition (30_encoding.md R141). -/
theorem exec_eq_whenPasses (i : Instr) (s : State) :
    ∃ o, exec i s = whenPasses (Laws.CondField.condition i) s o := by
  cases i <;> exact ⟨_, rfl⟩

theorem exec_of_fail (i : Instr) (s : State) (h : s.passes (condOf i) = false) : exec i s = .next s := by
  obtain ⟨o, ho⟩ := exec_eq_whenPasses i s
  rw [condOf, Laws.cond_of_encode] at h
  rw [ho, whenPasses_of_fail _ _ _ h]

/-- Settles O5: every instruction stands behind the condition its word holds; NV holds never. -/
theorem failedConditionSkips : Obligations.FailedConditionSkips := by
  unfold Obligations.FailedConditionSkips
  refine fun i s => ⟨exec_of_fail i s, fun h => exec_of_fail i s ?_⟩
  rw [h]
  rfl

/-- Settles O4: the sixteen rows for the sixteen values of N, Z, C and V. -/
theorem conditionTable : Obligations.ConditionTable := by
  unfold Obligations.ConditionTable
  intro s n z c v
  have hpasses : ∀ k, s.passes k = condHolds k n z c v := fun _ => rfl
  simp only [hpasses]
  clear_value n z c v
  clear hpasses
  revert n z c v
  decide

/-- Settles O1: each word is decoded. -/
theorem decodeSpecWords : Obligations.DecodeSpecWords := by
  unfold Obligations.DecodeSpecWords
  decide

/-! The barrel shifter. -/

theorem toNat_shiftLeft_word (v : Word) (n : Nat) : (v <<< n).toNat = v.toNat * 2 ^ n % 2 ^ 32 := by
  rw [BitVec.toNat_shiftLeft, Nat.shiftLeft_eq]

theorem toNat_ushiftRight_word (v : Word) (n : Nat) : (v >>> n).toNat = v.toNat / 2 ^ n := by
  rw [BitVec.toNat_ushiftRight, Nat.shiftRight_eq_div_pow]

theorem toInt_sshiftRight_word (v : Word) (n : Nat) : (v.sshiftRight n).toInt = v.toInt / 2 ^ n := by
  rw [BitVec.toInt_sshiftRight, Int.shiftRight_eq_div_pow]
  norm_cast

/-- An arithmetic shift by 31 fills the word with the sign. -/
theorem sshiftRight_31 (v : Word) : v.sshiftRight 31 = if v.getLsbD 31 then 0xFFFFFFFF#32 else 0#32 := by
  ext i hi
  have hbit : (if v.getLsbD 31 then 0xFFFFFFFF#32 else 0#32)[i] = v.getLsbD 31 := by
    cases v.getLsbD 31 with
    | false => exact BitVec.getElem_zero hi
    | true => exact BitVec.getElem_allOnes i hi
  rw [hbit, BitVec.getElem_sshiftRight, BitVec.msb_eq_getLsbD_last]
  split
  · have hi0 : i = 0 := by omega
    subst hi0
    rfl
  · rfl

theorem getLsbD_rotateRight_word (v : Word) (n i : Nat) (hn : n < 32) (hi : i < 32) :
    (v.rotateRight n).getLsbD i = v.getLsbD ((i + n) % 32) := by
  rw [BitVec.getLsbD_rotateRight, Nat.mod_eq_of_lt hn]
  by_cases h : i < 32 - n
  · rw [Nat.mod_eq_of_lt (by omega), Nat.add_comm]
    simp [h]
  · rw [show (i + n) % 32 = i - (32 - n) by omega]
    simp [h, hi]

/-- RRX: the word one bit down, the carry on top (40_data_processing.md R204). -/
theorem rrx_bits (v : Word) (cin : Bool) (i : Nat) (hi : i < 32) :
    (fieldAt (bit cin) 31 ||| v >>> 1).getLsbD i = if i = 31 then cin else v.getLsbD (i + 1) := by
  rw [BitVec.getLsbD_or, getLsbD_fieldAt, getLsbD_bit, BitVec.getLsbD_ushiftRight, Nat.add_comm 1 i]
  by_cases h : i = 31
  · subst h; simp
  · have h31 : ¬ 31 ≤ i := by omega
    simp [h, h31]

theorem shiftImm_of_ne (sh : ShiftType) (a : BitVec 5) (v : Word) (cin : Bool) (h : a ≠ 0#5) :
    shiftImm sh a v cin =
      match sh with
      | .lsl => (v <<< a.toNat, v.getLsbD (32 - a.toNat))
      | .lsr => (v >>> a.toNat, v.getLsbD (a.toNat - 1))
      | .asr => (v.sshiftRight a.toNat, v.getLsbD (a.toNat - 1))
      | .ror => (v.rotateRight a.toNat, v.getLsbD (a.toNat - 1)) := by
  have h0 : a.toNat ≠ 0 := fun e => h (BitVec.eq_of_toNat_eq e)
  cases sh <;> simp [shiftImm, h0]

theorem shiftReg_of_pos (sh : ShiftType) (n : BitVec 8) (v : Word) (cin : Bool) (h : 1 ≤ n.toNat)
    (h' : n.toNat ≤ 31) :
    shiftReg sh n v cin =
      match sh with
      | .lsl => (v <<< n.toNat, v.getLsbD (32 - n.toNat))
      | .lsr => (v >>> n.toNat, v.getLsbD (n.toNat - 1))
      | .asr => (v.sshiftRight n.toNat, v.getLsbD (n.toNat - 1))
      | .ror => (v.rotateRight n.toNat, v.getLsbD (n.toNat - 1)) := by
  have h0 : n.toNat ≠ 0 := by omega
  have h32 : n.toNat < 32 := by omega
  have hmod : n.toNat % 32 = n.toNat := Nat.mod_eq_of_lt h32
  cases sh <;> simp [shiftReg, h0, h32, hmod]

/-- Settles O9: the shifter's cases, each in numbers. -/
theorem barrelShifter : Obligations.BarrelShifter := by
  unfold Obligations.BarrelShifter
  intro v cin a n
  refine ⟨?_, ?_, ?_, ?_, ?_, ?_, ?_, ?_, ?_, ?_, ?_, ?_, ?_, ?_, ?_, ?_, ?_, ?_, ?_⟩
  · rintro rfl; rfl
  · intro ha
    rw [shiftImm_of_ne _ _ _ _ ha]
    exact ⟨toNat_shiftLeft_word .., rfl⟩
  · intro h h'
    rw [shiftReg_of_pos _ _ _ _ h h']
    exact ⟨toNat_shiftLeft_word .., rfl⟩
  · intro h; simp [shiftReg, h]
  · intro h; simp [shiftReg, show n.toNat ≠ 0 by omega, show ¬ n.toNat < 32 by omega, show n.toNat ≠ 32 by omega]
  · rintro rfl; rfl
  · intro ha
    rw [shiftImm_of_ne _ _ _ _ ha]
    exact ⟨toNat_ushiftRight_word .., rfl⟩
  · intro h h'
    rw [shiftReg_of_pos _ _ _ _ h h']
    exact ⟨toNat_ushiftRight_word .., rfl⟩
  · intro h; simp [shiftReg, h]
  · intro h; simp [shiftReg, show n.toNat ≠ 0 by omega, show ¬ n.toNat < 32 by omega, show n.toNat ≠ 32 by omega]
  · rintro rfl
    rw [← sshiftRight_31]
    rfl
  · intro ha
    rw [shiftImm_of_ne _ _ _ _ ha]
    exact ⟨toInt_sshiftRight_word .., rfl⟩
  · intro h h'
    rw [shiftReg_of_pos _ _ _ _ h h']
    exact ⟨toInt_sshiftRight_word .., rfl⟩
  · intro h
    rw [← sshiftRight_31]
    simp [shiftReg, show n.toNat ≠ 0 by omega, show ¬ n.toNat < 32 by omega]
  · rintro rfl
    refine ⟨fun i hi => ?_, rrx_bits v cin 31 (by decide), rfl⟩
    exact (rrx_bits v cin i (by omega)).trans (if_neg (by omega))
  · intro ha
    rw [shiftImm_of_ne _ _ _ _ ha]
    exact ⟨fun i hi => getLsbD_rotateRight_word v _ i (by omega) hi, rfl⟩
  · intro h
    have hn : n.toNat ≠ 0 := by omega
    have hrot : shiftReg .ror n v cin = (v.rotateRight (n.toNat % 32), v.getLsbD (n.toNat % 32 - 1)) := by
      simp [shiftReg, h, hn]
    rw [hrot]
    refine ⟨fun i hi => ?_, rfl⟩
    rw [getLsbD_rotateRight_word v _ i (by omega) hi, Nat.add_mod_mod]
  · intro h h'; simp [shiftReg, h', show n.toNat ≠ 0 by omega]
  · rintro rfl sh; rfl

/-! Data processing. -/

/-- N, Z, C and V in exact numbers. -/
theorem addWithCarry_c (a b : Word) (cin : Bool) :
    (addWithCarry a b cin).c = true ↔ 2 ^ 32 ≤ a.toNat + b.toNat + cin.toNat := by
  have ha := a.isLt
  have hb := b.isLt
  have hc : cin.toNat < 2 := by cases cin <;> decide
  have hsum : (a.setWidth 64 + b.setWidth 64 + (BitVec.ofBool cin).setWidth 64 : BitVec 64).toNat =
      a.toNat + b.toNat + cin.toNat := by
    simp only [BitVec.toNat_add, BitVec.toNat_setWidth, BitVec.toNat_ofBool]
    omega
  unfold addWithCarry
  dsimp only
  rw [BitVec.getLsbD, hsum, Nat.testBit_eq_decide_div_mod_eq, decide_eq_true_iff]
  omega

theorem toNat_addWithCarry (a b : Word) (cin : Bool) :
    (addWithCarry a b cin).res.toNat = (a.toNat + b.toNat + cin.toNat) % 2 ^ 32 := by
  rw [addWithCarry_res]
  cases cin <;> simp [BitVec.toNat_add]

theorem getLsbD_31_iff (a : Word) : a.getLsbD 31 = true ↔ 2 ^ 31 ≤ a.toNat := by
  rw [BitVec.getLsbD, Nat.testBit_eq_decide_div_mod_eq, decide_eq_true_iff]
  have := a.isLt
  omega

theorem toInt_word (a : Word) : a.toInt = if a.getLsbD 31 then (a.toNat : Int) - 2 ^ 32 else (a.toNat : Int) := by
  rw [BitVec.toInt_eq_toNat_cond, if_congr (getLsbD_31_iff a) rfl rfl]
  by_cases h : 2 ^ 31 ≤ a.toNat
  · rw [if_neg (by omega), if_pos h]; rfl
  · rw [if_pos (by omega), if_neg h]

/-- The sign bits say when `V` is set: the operands agree and the result does not. -/
theorem addWithCarry_v_signs (a b : Word) (cin : Bool) :
    (addWithCarry a b cin).v =
      (a.getLsbD 31 == b.getLsbD 31 && a.getLsbD 31 != (addWithCarry a b cin).res.getLsbD 31) := by
  have hmask : ∀ x : Word, decide (x &&& 0x80000000#32 ≠ 0#32) = x.getLsbD 31 := by
    intro x
    rw [show (0x80000000#32 : Word) = BitVec.twoPow 32 31 from rfl, BitVec.and_twoPow]
    cases x.getLsbD 31 <;> rfl
  change decide (_ &&& 0x80000000#32 ≠ 0#32) = _
  rw [hmask, BitVec.getLsbD_and, BitVec.getLsbD_xor, BitVec.getLsbD_xor, BitVec.getLsbD_xor]
  change ((_ ^^ _ ^^ true) && (_ ^^ (addWithCarry a b cin).res.getLsbD 31)) = _
  cases a.getLsbD 31 <;> cases b.getLsbD 31 <;> rfl

/-- `V` is two's-complement overflow of the exact sum (40_data_processing.md R206). -/
theorem addWithCarry_v (a b : Word) (cin : Bool) :
    (addWithCarry a b cin).v = true ↔
      ¬ (-2 ^ 31 ≤ a.toInt + b.toInt + cin.toNat ∧ a.toInt + b.toInt + cin.toNat < 2 ^ 31) := by
  have hres := toNat_addWithCarry a b cin
  have hra := getLsbD_31_iff a
  have hrb := getLsbD_31_iff b
  have hrr := getLsbD_31_iff (addWithCarry a b cin).res
  have hc : cin.toNat < 2 := by cases cin <;> decide
  have ha := a.isLt
  have hb := b.isLt
  rw [addWithCarry_v_signs, toInt_word, toInt_word]
  revert hra hrb hrr
  cases a.getLsbD 31 <;> cases b.getLsbD 31 <;> cases (addWithCarry a b cin).res.getLsbD 31 <;> simp <;> omega

/-- C of an arithmetic operation: carry out, or no borrow (40_data_processing.md R207). -/
theorem dpCompute_c (op : DpOp) (a b : Word) (sc c v : Bool) (h : ¬ IsLogical op) :
    (dpCompute op a b sc c v).c = true ↔ exactCarry op a b c := by
  have ha := a.isLt
  have hb := b.isLt
  cases op with
  | and | eor | tst | teq | orr | mov | bic | mvn => exact absurd (by simp [IsLogical]) h
  | add | cmn => simp only [dpCompute, exactCarry, addWithCarry_c, Bool.toNat_false, Nat.add_zero]
  | sub | cmp | rsb =>
    simp only [dpCompute, exactCarry, addWithCarry_c, BitVec.toNat_not, Bool.toNat_true]
    omega
  | adc => cases c <;> simp [dpCompute, exactCarry, addWithCarry_c]
  | sbc | rsc =>
    simp only [dpCompute, exactCarry, addWithCarry_c, BitVec.toNat_not]
    cases c <;> simp <;> omega

theorem toInt_not_word (a : Word) : (~~~a).toInt = -a.toInt - 1 := by
  have ha := a.isLt
  have hbit := getLsbD_31_iff a
  rw [toInt_word, toInt_word, BitVec.toNat_not, BitVec.getLsbD_not]
  cases h : a.getLsbD 31 <;> simp <;> omega

/-- V of an arithmetic operation (40_data_processing.md R206, R207). -/
theorem dpCompute_v (op : DpOp) (a b : Word) (sc c v : Bool) (h : ¬ IsLogical op) :
    (dpCompute op a b sc c v).v = true ↔ exactOverflow op a b c := by
  cases op with
  | and | eor | tst | teq | orr | mov | bic | mvn => exact absurd (by simp [IsLogical]) h
  | add | cmn => simp [dpCompute, exactOverflow, exactSigned, addWithCarry_v]
  | adc => cases c <;> simp [dpCompute, exactOverflow, exactSigned, addWithCarry_v]
  | sub | cmp | rsb =>
    simp only [dpCompute, exactOverflow, exactSigned, addWithCarry_v, toInt_not_word, Bool.toNat_true]
    omega
  | sbc | rsc =>
    simp only [dpCompute, exactOverflow, exactSigned, addWithCarry_v, toInt_not_word]
    cases c <;> simp <;> omega

/-- C of a logical operation is the shifter carry, and V is kept (40_data_processing.md R209). -/
theorem dpCompute_logical (op : DpOp) (a b : Word) (sc c v : Bool) (h : IsLogical op) :
    (dpCompute op a b sc c v).c = sc ∧ (dpCompute op a b sc c v).v = v := by
  rcases h with rfl | rfl | rfl | rfl | rfl | rfl | rfl | rfl <;> exact ⟨rfl, rfl⟩

/-! The effect of a data-processing instruction. -/

/-- What the ALU of a data-processing instruction computes. -/
def dpAlu (op : DpOp) (rn : RegNum) (o : Op2) (s : State) : AluResult :=
  dpCompute op (s.readBase rn) (op2Value o s).1 (op2Value o s).2 s.flagC s.flagV

theorem dpAlu_res (op : DpOp) (rn : RegNum) (o : Op2) (s : State) :
    (dpAlu op rn o s).res = tableResult op (s.readBase rn) (op2Value o s).1 s.flagC :=
  dpCompute_res ..

theorem isTest_eq_true (op : DpOp) (h : IsTest op) : DpOp.isTest op = true := by
  rcases h with rfl | rfl | rfl | rfl <;> rfl

/-- A result written to Rd by an operation that writes it. -/
def dpWrite (op : DpOp) (rd : RegNum) (v : Word) (s : State) : State :=
  if DpOp.isTest op then s else s.setReg rd v

theorem exec_dpInstr_setsFlags (op : DpOp) (c : Cond) (rn rd : RegNum) (o : Op2) (s : State) (hc : s.passes c = true)
    (hrd : rd ≠ 15#4) :
    exec (dpInstr op c true rn rd o) s =
      .next ((dpWrite op rd (dpAlu op rn o s).res s).setAluFlags (dpAlu op rn o s)) := by
  rw [exec_dpInstr, whenPasses_of_pass _ _ _ hc, dpOutcome_eq_next _ _ _ _ _ _ (.inr (.inl rfl))]
  unfold dpExec dpWrite
  cases DpOp.isTest op <;> simp [hrd, dpAlu]

theorem exec_dpInstr_keepsFlags (op : DpOp) (c : Cond) (rn rd : RegNum) (o : Op2) (s : State) (hc : s.passes c = true)
    (ht : ¬ IsTest op) (hrd : rd ≠ 15#4) :
    exec (dpInstr op c false rn rd o) s = .next (s.setReg rd (dpAlu op rn o s).res) := by
  have hop := isTest_eq_false op ht
  rw [exec_dpInstr, whenPasses_of_pass _ _ _ hc, dpOutcome_eq_next _ _ _ _ _ _ (.inl hop)]
  simp [dpExec, hop, hrd, dpAlu]

theorem dpWrite_r15 (op : DpOp) (rd : RegNum) (v : Word) (s : State) (hrd : rd ≠ 15#4) :
    (dpWrite op rd v s).r15 = s.r15 := by
  unfold dpWrite
  split
  · rfl
  · exact setReg_r15 s rd v hrd

theorem lowKept_setAluFlags (s : State) (r : AluResult) : LowKept s (s.setAluFlags r) := setNzcv_low ..

/-- The flags are written over R15 as it was, whatever register was written before. -/
theorem lowKept_dpWrite_setAluFlags (op : DpOp) (rd : RegNum) (v : Word) (r : AluResult) (s : State)
    (hrd : rd ≠ 15#4) :
    LowKept s ((dpWrite op rd v s).setAluFlags r) := by
  rw [LowKept, ← dpWrite_r15 op rd v s hrd]
  exact setNzcv_low ..

theorem flagsAre_setAluFlags (s : State) (r : AluResult) :
    FlagsAre (s.setAluFlags r) (r.res.getLsbD 31) (decide (r.res = 0#32)) r.c r.v := setNzcv_flags ..

/-- Settles O11: the flags are those of the ALU, in exact numbers by `dpCompute_c` and `dpCompute_v`. -/
theorem arithmeticFlags : Obligations.ArithmeticFlags := by
  unfold Obligations.ArithmeticFlags
  intro op c rn rd o s hc hl hrd
  refine ⟨_, exec_dpInstr_setsFlags op c rn rd o s hc hrd, lowKept_dpWrite_setAluFlags _ _ _ _ _ hrd, ?_⟩
  obtain ⟨hn, hz, hcarry, hv⟩ := flagsAre_setAluFlags (dpWrite op rd (dpAlu op rn o s).res s) (dpAlu op rn o s)
  rw [hn, hz, hcarry, hv, dpAlu_res]
  refine ⟨?_, decide_eq_true_iff, dpCompute_c _ _ _ _ _ _ hl, dpCompute_v _ _ _ _ _ _ hl⟩
  rw [BitVec.toInt_neg_iff, getLsbD_31_iff]
  omega

/-- Settles O12: C of the ALU is the shifter carry and V the flag before. -/
theorem logicalFlags : Obligations.LogicalFlags := by
  unfold Obligations.LogicalFlags
  intro op c rn rd o s hc hl hrd
  refine ⟨_, exec_dpInstr_setsFlags op c rn rd o s hc hrd, lowKept_dpWrite_setAluFlags _ _ _ _ _ hrd, ?_⟩
  obtain ⟨hcarry, hv⟩ := dpCompute_logical op (s.readBase rn) (op2Value o s).1 (op2Value o s).2 s.flagC s.flagV hl
  obtain ⟨hn, hz, hcarry', hv'⟩ := flagsAre_setAluFlags (dpWrite op rd (dpAlu op rn o s).res s) (dpAlu op rn o s)
  rw [← dpAlu_res]
  exact ⟨hn, hz, hcarry'.trans hcarry, hv'.trans hv⟩

theorem slotsKept_setReg (s : State) (r : RegNum) (v : Word) : SlotsKept s (s.setReg r v) [slotOf s.mode r] := by
  intro k _ hk
  exact getSlot_setSlot_ne _ _ _ _ (by simpa using hk)

/-- A change of R15 alone changes no other slot. -/
theorem SlotsKept.of_regs {s t u : State} {l : List Slot} (h : SlotsKept s t l) (hr : u.regs = t.regs) :
    SlotsKept s u l := fun k hk hl => (getSlot_of_regs _ _ k hk hr).trans (h k hk hl)

theorem reg_setNzcv (s : State) (n z c v : Bool) (r : RegNum) (h : r ≠ 15#4) : (s.setNzcv n z c v).reg r = s.reg r :=
  reg_congr s _ r h rfl (mode_of_low s _ (setNzcv_low s n z c v))

/-- Settles O10: with S = 0 Rd is written, with S = 1 the flags besides. -/
theorem dataProcessingResult : Obligations.DataProcessingResult := by
  unfold Obligations.DataProcessingResult
  intro op c sf rn rd o s hc ht hrd
  have hframe : ∀ v, RegsOnly s (s.setReg rd v) := fun v => setReg_eq s rd v
  rw [← dpAlu_res]
  cases sf with
  | false =>
    refine ⟨_, exec_dpInstr_keepsFlags op c rn rd o s hc ht hrd, reg_setReg_self s rd _ hrd, slotsKept_setReg s rd _,
      ?_, fun _ => setReg_r15 s rd _ hrd, hframe _⟩
    rw [LowKept, setReg_r15 s rd _ hrd]
  | true =>
    have hlow := lowKept_dpWrite_setAluFlags op rd (dpAlu op rn o s).res (dpAlu op rn o s) s hrd
    refine ⟨_, exec_dpInstr_setsFlags op c rn rd o s hc hrd, ?_⟩
    rw [dpWrite, if_neg (by simp [isTest_eq_false op ht])] at hlow ⊢
    refine ⟨?_, (slotsKept_setReg s rd _).of_regs rfl, hlow, by simp, ?_⟩
    · exact (reg_setNzcv _ _ _ _ _ rd hrd).trans (reg_setReg_self s rd _ hrd)
    · rw [RegsOnly]
      conv_lhs => rw [State.setAluFlags, State.setNzcv, hframe]
      rfl

/-- Settles O13: a test operation writes no register. -/
theorem testOperations : Obligations.TestOperations := by
  unfold Obligations.TestOperations
  intro op c rn rd o s hc ht
  have hop := isTest_eq_true op ht
  refine ⟨fun hno => ?_, fun hrefuse => ?_, fun hrd => ⟨_, exec_dpInstr_setsFlags op c rn rd o s hc hrd,
    lowKept_dpWrite_setAluFlags _ _ _ _ _ hrd, ?_⟩⟩
  · rw [exec_dpInstr, whenPasses_of_pass _ _ _ hc, dpOutcome_eq_next _ _ _ _ _ _ (.inr (.inr hno))]
    simp [dpExec, hop]
  · rw [exec_dpInstr, whenPasses_of_pass _ _ _ hc]
    simp [dpOutcome, hop, hrefuse]
  · rw [dpWrite, if_pos hop]
    rfl

/-! The PSR-write form (40_data_processing.md R214). -/

theorem psrWrite_flags_of_usr (s : State) (v : Word) (hm : s.mode = .usr) :
    (s.psrWrite v).r15.extractLsb' 28 4 = v.extractLsb' 28 4 := by
  rw [State.psrWrite, if_pos hm]
  simp (disch := omega) [BitVec.extractLsb'_or]

theorem psrWrite_of_privileged (s : State) (v : Word) (hm : s.mode ≠ .usr) :
    (s.psrWrite v).r15.extractLsb' 26 6 = v.extractLsb' 26 6 ∧
      (s.psrWrite v).r15.extractLsb' 0 2 = v.extractLsb' 0 2 ∧
    (s.psrWrite v).r15.extractLsb' 2 24 = s.r15.extractLsb' 2 24 := by
  rw [State.psrWrite, if_neg hm]
  refine ⟨?_, ?_, ?_⟩ <;> simp (disch := omega) [BitVec.extractLsb'_or]

/-- Settles O16: the instruction is `PSRWriteFromResult` of the table's result, in both modes. -/
theorem psrWriteForm : Obligations.PsrWriteForm := by
  unfold Obligations.PsrWriteForm
  intro op c rn o s hc ht
  have hexec : exec (dpInstr op c true rn 15#4 o) s = .next (s.psrWrite (dpAlu op rn o s).res) := by
    rw [exec_dpInstr, whenPasses_of_pass _ _ _ hc, dpOutcome_eq_next _ _ _ _ _ _ (.inr (.inl rfl))]
    simp [dpExec, isTest_eq_true op ht, dpAlu]
  rw [dpAlu_res] at hexec
  refine ⟨_, hexec, ?_, fun hm => ⟨psrWrite_flags_of_usr s _ hm, psrWrite_low_of_usr s _ hm⟩,
    fun hm => psrWrite_of_privileged s _ hm⟩
  unfold State.psrWrite
  split <;> rfl

/-! Multiply (41_multiply.md). -/

/-- What a multiply computes. -/
def mulResult (acc : Bool) (rn rs rm : RegNum) (s : State) : Word :=
  if acc then s.reg rm * s.reg rs + s.reg rn else s.reg rm * s.reg rs

theorem toNat_mulResult (acc : Bool) (rn rs rm : RegNum) (s : State) :
    (mulResult acc rn rs rm s).toNat =
      ((s.reg rm).toNat * (s.reg rs).toNat + (if acc then (s.reg rn).toNat else 0)) % 2 ^ 32 := by
  cases acc <;> simp [mulResult]

theorem exec_mulInstr (acc : Bool) (c : Cond) (sf : Bool) (rd rn rs rm : RegNum) (s : State) (hc : s.passes c = true)
    (hrd : rd ≠ 15#4) (hrs : rs ≠ 15#4) (hrm : rm ≠ 15#4) (hrn : acc = true → rn ≠ 15#4) (hne : rd ≠ rm) :
    exec (mulInstr acc c sf rd rn rs rm) s = .next (mulWrite sf rd (mulResult acc rn rs rm s) s) := by
  cases acc with
  | false =>
    refine (whenPasses_of_pass _ _ _ hc).trans ?_
    simp [mulRefusal, hrd.symm, hrs.symm, hrm.symm, hne, mulResult]
  | true =>
    refine (whenPasses_of_pass _ _ _ hc).trans ?_
    simp [mulRefusal, hrd.symm, hrs.symm, hrm.symm, (hrn rfl).symm, hne, mulResult]

theorem reg_mulWrite (sf : Bool) (rd : RegNum) (v : Word) (s : State) (hrd : rd ≠ 15#4) :
    (mulWrite sf rd v s).reg rd = v := by
  cases sf with
  | false => exact reg_setReg_self s rd v hrd
  | true =>
    exact (reg_setNzcv _ _ _ _ _ rd hrd).trans (reg_setReg_self s rd v hrd)

/-- N and Z follow the result and V is kept (41_multiply.md R263). -/
theorem mulWrite_flags (rd : RegNum) (v : Word) (s : State) :
    (mulWrite true rd v s).flagN = v.getLsbD 31 ∧ (mulWrite true rd v s).flagZ = decide (v = 0#32) ∧
    (mulWrite true rd v s).flagV = (s.setReg rd v).flagV := by
  have hr15 : (mulWrite true rd v s).r15 = ((s.setReg rd v).setNzcv (v.getLsbD 31) (decide (v = 0#32))
    (Config.mulCarry (s.setReg rd v).draws) (s.setReg rd v).flagV).r15 := rfl
  obtain ⟨hn, hz, -, hv⟩ := setNzcv_flags (s.setReg rd v) (v.getLsbD 31) (decide (v = 0#32))
    (Config.mulCarry (s.setReg rd v).draws) (s.setReg rd v).flagV
  unfold State.flagN State.flagZ State.flagV at *
  rw [hr15]
  exact ⟨hn, hz, hv⟩

theorem mulWrite_eq (sf : Bool) (rd : RegNum) (v : Word) (s : State) :
    mulWrite sf rd v s = { s with
      regs := (mulWrite sf rd v s).regs, r15 := (mulWrite sf rd v s).r15, draws := (mulWrite sf rd v s).draws } := by
  unfold mulWrite State.setMulFlags State.setNzcv
  rw [setReg_eq s rd v]
  split <;> rfl

/-- Settles O17: the register written, and with S = 1 the flags over R15 as it was. -/
theorem multiply : Obligations.Multiply := by
  unfold Obligations.Multiply
  intro acc c sf rd rn rs rm s hc hrd hrs hrm hrn hne
  refine ⟨_, exec_mulInstr acc c sf rd rn rs rm s hc hrd hrs hrm hrn hne, ?_⟩
  rw [reg_mulWrite sf rd _ s hrd]
  have hr15 := setReg_r15 s rd (mulResult acc rn rs rm s) hrd
  refine ⟨toNat_mulResult .., ?_, ?_, ?_, ?_⟩
  · cases sf with
    | false => exact slotsKept_setReg s rd _
    | true => exact (slotsKept_setReg s rd _).of_regs rfl
  · cases sf with
    | false => rw [LowKept, mulWrite, if_neg (by decide), hr15]
    | true => rw [LowKept, ← hr15]; exact setNzcv_low ..
  · rintro rfl
    exact ⟨hr15, setReg_eq ..⟩
  · rintro rfl
    obtain ⟨hn, hz, hv⟩ := mulWrite_flags rd (mulResult acc rn rs rm s) s
    exact ⟨hn, hz, by rw [hv, State.flagV, hr15, State.flagV], mulWrite_eq ..⟩

end Sys2Proof.Machine
end

section
/-! SUPPORT. Exceptions, branches, SWI, BKPT and the words without a meaning (60_exceptions.md R501, R511, R514;
45_branch.md R380 to R383; 46_swi_coprocessor.md R400, R401, R414; 30_encoding.md R170). -/

namespace Sys2Proof.Machine

/-! Exception entry. -/

/-- The link register of the mode entered is the only slot written. -/
theorem slotsKept_enter (k : ExcKind) (link : Addr) (s : State) :
    SlotsKept s (enter k link s) [slotOf (excEntry k).mode 14#4] := by
  intro j hj hk
  rw [getSlot_enter _ _ _ _ hj, if_neg fun h => hk (by simp [h.2])]

/-- The entry of a kind that saves a link, by its row of the table (60_exceptions.md R511). -/
theorem entered_enter (k : ExcKind) (link : Addr) (s : State) (h : (excEntry k).saves = true) :
    Entered (excEntry k).mode (excEntry k).vector (excEntry k).setsF link s (enter k link s) := by
  obtain ⟨hN, hZ, hC, hV, hI, hF⟩ := enter_flags k link s
  have hlink : (enter k link s).getSlot (slotOf (excEntry k).mode 14#4) = r15Full s.r15 link := by
    rw [getSlot_enter _ _ _ _ (slotOf_link_ne_r15 _), if_pos ⟨h, rfl⟩]
  refine ⟨enter_mode .., enter_pc .., hI, hF, ⟨hN, hZ, hC, hV⟩, ?_, ?_, ?_, slotsKept_enter k link s⟩ <;> simp [hlink]

/-- Only the kinds of the interrupts touch a pin (60_exceptions.md R532). -/
theorem enter_eq_of_no_pin (k : ExcKind) (link : Addr) (s : State) (hi : k ≠ .irq) (hf : k ≠ .fiq) :
    enter k link s = { s with regs := (enter k link s).regs, r15 := (enter k link s).r15 } := by
  conv_lhs => rw [enter_eq, enter_pinIrq, enter_pinFiq, if_neg hi, if_neg hf]

/-- An exception of the executing instruction, by its row of the table. -/
theorem raised_raise (k : ExcKind) (hk : k ∈ instrExceptions) (link : Addr) (s : State) :
    Raised (excEntry k).vector link s (raise k link s) := by
  obtain ⟨hmode, hsetsF, -⟩ := excEntry_of_instrExceptions k hk
  have hsaves : (excEntry k).saves = true := by revert k; decide
  have hpins : k ≠ .irq ∧ k ≠ .fiq := by revert k; decide
  have hentered := entered_enter k link { s with watchHit := false } hsaves
  rw [hmode, hsetsF] at hentered
  exact ⟨hentered, enter_eq_of_no_pin k link _ hpins.1 hpins.2⟩

theorem raised_raiseHere (k : ExcKind) (hk : k ∈ instrExceptions) (s : State) :
    Raised (excEntry k).vector (s.instrAddr + linkOffset s.cfg k) s (raiseHere k s) :=
  raised_raise k hk _ s

/-- A data abort links to the instruction itself. -/
theorem raised_dataAbort (s : State) : Raised 0x10#26 s.instrAddr s (raise .dataAbort s.instrAddr s) :=
  raised_raise .dataAbort (by decide) _ s

/-- Settles O47: the rows of the table, one by one. -/
theorem exceptionEntry : Obligations.ExceptionEntry := by
  unfold Obligations.ExceptionEntry
  refine ⟨fun k => by cases k <;> rfl, fun link s => ⟨⟨entered_enter .undefinedInstruction link s rfl,
    entered_enter .softwareInterrupt link s rfl, entered_enter .prefetchAbort link s rfl,
    entered_enter .dataAbort link s rfl, entered_enter .addressException link s rfl, entered_enter .irq link s rfl,
    entered_enter .fiq link s rfl⟩, ?_, fun k => ⟨enter_pinIrq .., enter_pinFiq .., rfl, enter_eq ..⟩⟩⟩
  obtain ⟨-, -, -, -, hI, hF⟩ := enter_flags .reset link s
  exact ⟨enter_mode .., enter_pc .., hI, hF, rfl⟩

/-! Return from an exception. -/

/-- `MOVS PC, R14` outside USR: all of R15 is the link (40_data_processing.md R213). -/
theorem exec_movs_pc_link (c : Cond) (rn : RegNum) (s : State) (hc : s.passes c = true) (hm : s.mode ≠ .usr) :
    exec (.movRsi c true rn 15#4 0#5 .lsl 14#4) s = .next { s with r15 := s.reg 14#4 } := by
  have hop : (op2Value (.rsi 0#5 .lsl 14#4) s).1 = s.reg 14#4 := rfl
  refine (exec_dpInstr_r15 .mov c rn (.rsi 0#5 .lsl 14#4) s hc (by simp [IsTest])).trans ?_
  rw [writeR15S_of_privileged s _ hm, tableResult, hop]
  rfl

theorem excEntry_saves (k : ExcKind) (hk : k ≠ .reset) : (excEntry k).saves = true := by
  cases k with
  | reset => exact absurd rfl hk
  | undefinedInstruction | softwareInterrupt | prefetchAbort | dataAbort | addressException | irq | fiq => rfl

theorem excEntry_mode_ne_usr (k : ExcKind) : (excEntry k).mode ≠ .usr := by
  cases k <;> decide

/-- The link as the handler's first instruction reads it. -/
theorem reg_link_advancePc_enter (k : ExcKind) (link : Addr) (s : State) (hk : k ≠ .reset) :
    (enter k link s).advancePc.reg 14#4 = r15Full s.r15 link := by
  rw [reg_congr (enter k link s) _ 14#4 (by decide) (State.advancePc_regs _) (mode_advancePc _)]
  exact enter_link k link s (excEntry_saves k hk)

/-- Settles O48: the handler's R14 holds the word the entry saved. -/
theorem exceptionReturn : Obligations.ExceptionReturn := by
  unfold Obligations.ExceptionReturn
  refine ⟨fun c rn s hc hm => exec_movs_pc_link c rn s hc hm, fun k rn link s hk halign => ?_⟩
  have hmode : (enter k link s).advancePc.mode ≠ .usr := by
    rw [mode_advancePc, enter_mode]
    exact excEntry_mode_ne_usr k
  refine ⟨_, exec_movs_pc_link .al rn _ rfl hmode, ?_⟩
  rw [reg_link_advancePc_enter k link s hk]
  refine ⟨⟨r15Full_psr .., r15Full_mode ..⟩, r15Pc_r15Full _ _ ((aligned_iff link).2 halign), ?_,
    (slotsKept_enter k link s).of_regs rfl⟩
  exact congrArg modeOfBits (r15Full_mode ..)

/-! Branches. -/

/-- The branch target as a number (45_branch.md R380). -/
theorem toNat_branchTarget (offset24 : BitVec 24) (s : State) :
    ((branchTarget offset24 s).toNat : Int) = ((s.instrAddr.toNat : Int) + 8 + 4 * offset24.toInt) % 2 ^ 26 := by
  have hsext : ((offset24.signExtend 32).toNat : Int) = offset24.toInt % 2 ^ 32 := by
    rw [← BitVec.toInt_signExtend_of_le (by decide : 24 ≤ 32), toInt_word]
    split <;> omega
  rw [branchTarget, prefetch_eq]
  simp only [BitVec.toNat_add, BitVec.toNat_setWidth, toNat_shiftLeft_word, BitVec.toNat_ofNat, addressBits]
  omega

theorem branchTarget_aligned (offset24 : BitVec 24) (s : State) :
    (branchTarget offset24 s).extractLsb' 0 2 = 0#2 := by
  have hpc := (aligned_iff s.instrAddr).1 (instrAddr_aligned s)
  have htarget := toNat_branchTarget offset24 s
  rw [aligned_iff]
  omega

theorem pc_branchTo (offset24 : BitVec 24) (s : State) : (branchTo offset24 s).pc = branchTarget offset24 s := by
  rw [branchTo, State.pc, State.writePc, BitVec.setWidth_setWidth_of_le _ (by decide), BitVec.setWidth_eq]
  exact r15Pc_r15Full _ _ (branchTarget_aligned ..)

/-- Settles O35: the branch is `WritePC` of its target. -/
theorem branch : Obligations.Branch := by
  unfold Obligations.Branch
  intro c offset24 s hc
  refine ⟨_, whenPasses_of_pass c s _ hc, ?_, psrKept_writePc .., rfl⟩
  rw [pc_branchTo, toNat_branchTarget]

theorem regsOnly_writePc {s t : State} (h : RegsOnly s t) (v : Word) : RegsOnly s (t.writePc v) := by
  rw [RegsOnly] at *
  conv_lhs => rw [h]
  rfl

/-- Settles O36: the link is saved in R14 before the PC is written. -/
theorem branchWithLink : Obligations.BranchWithLink := by
  unfold Obligations.BranchWithLink
  intro c offset24 s hc
  have hr15 : (saveLink s).r15 = s.r15 := setReg_r15 s 14#4 _ (by decide)
  have haddr : (saveLink s).instrAddr = s.instrAddr := by simp only [State.instrAddr, State.pc, hr15]
  have hlink : (branchTo offset24 (saveLink s)).reg 14#4 = r15Full s.r15 s.pc :=
    (reg_congr (saveLink s) _ 14#4 (by decide) (State.writePc_regs ..) (mode_writePc ..)).trans
      (reg_setReg_self s 14#4 _ (by decide))
  refine ⟨_, whenPasses_of_pass c s _ hc, ?_, ?_, ?_, ?_, ?_, (slotsKept_setReg s 14#4
    (r15Full s.r15 s.pc)).of_regs rfl, ?_⟩
  · rw [pc_branchTo, toNat_branchTarget, haddr]
  · rw [PsrKept, ← hr15]
    exact psrKept_writePc ..
  · rw [hlink, r15Full_psr]
  · rw [hlink, r15Full_field, instrAddr_add_four]
  · rw [hlink, r15Full_mode]
  · exact regsOnly_writePc (setReg_eq s 14#4 _) _

/-! SWI and BKPT. -/

/-- Settles O37: SWI raises a software interrupt. -/
theorem softwareInterrupt : Obligations.SoftwareInterrupt := by
  unfold Obligations.SoftwareInterrupt
  exact fun c imm24 s hc => ⟨_, whenPasses_of_pass c s _ hc, raised_raiseHere .softwareInterrupt (by decide) s⟩

/-- A Breakpoint in a bounded run ends the call with the PC at `halt`. -/
theorem resolveBreakpoint_of_bounded (halt link : Addr) (s : State) (h : s.bounded = true) :
    resolveBreakpoint halt link s = { s with r15 := r15Full s.r15 halt, status := .breakpointHit } := if_pos h

/-- A Breakpoint in an unbounded run is a software interrupt. -/
theorem resolveBreakpoint_of_unbounded (halt link : Addr) (s : State) (h : s.bounded = false) :
    resolveBreakpoint halt link s = enter .softwareInterrupt link s := if_neg (by simp [h])

/-- Settles O39: the Breakpoint of the executing instruction, resolved in both kinds of run. -/
theorem breakpointInstruction : Obligations.BreakpointInstruction := by
  unfold Obligations.BreakpointInstruction
  intro c imm24 s hc
  refine ⟨fun hb => ⟨_, (whenPasses_of_pass c s _ hc).trans
    (congrArg _ (resolveBreakpoint_of_bounded _ _ { s with watchHit := false } hb)), ?_, ?_, rfl⟩,
    fun hb => ⟨_, (whenPasses_of_pass c s _ hc).trans
      (congrArg _ (resolveBreakpoint_of_unbounded _ _ { s with watchHit := false } hb)),
      raised_raise .softwareInterrupt (by decide) _ s⟩⟩
  · exact r15Pc_r15Full _ _ (instrAddr_aligned s)
  · exact ⟨r15Full_psr .., r15Full_mode ..⟩

/-! Words without a meaning. -/

theorem undefinedBy_of_exec (o : UndefOutcome) (i : Instr) (s : State) (h : exec i s = .next (takeUndefined o s)) :
    UndefinedBy o i s := by
  refine ⟨?_, ?_⟩ <;> rintro rfl
  · exact ⟨_, h, raised_raiseHere .undefinedInstruction (by decide) s⟩
  · exact h

theorem undefinedBy_undefDp (c : Cond) (bits : BitVec 28) (s : State) (hc : s.passes c = true) :
    UndefinedBy s.cfg.undefOutcome (.undefDp c bits) s := undefinedBy_of_exec _ _ _ (whenPasses_of_pass c s _ hc)

theorem undefinedBy_undefSdt (c : Cond) (bits : BitVec 28) (s : State) (hc : s.passes c = true) :
    UndefinedBy s.cfg.undefOutcome (.undefSdt c bits) s := undefinedBy_of_exec _ _ _ (whenPasses_of_pass c s _ hc)

theorem undefinedBy_ldc (c : Cond) (pf uf nf wf : Bool) (rn : RegNum) (crd : CrNum) (cp : BitVec 4)
    (offset8 : BitVec 8) (s : State) (hc : s.passes c = true) :
    UndefinedBy s.cfg.cdtOutcome (.ldc c pf uf nf wf rn crd cp offset8) s :=
  undefinedBy_of_exec _ _ _ (whenPasses_of_pass c s _ hc)

theorem undefinedBy_stc (c : Cond) (pf uf nf wf : Bool) (rn : RegNum) (crd : CrNum) (cp : BitVec 4)
    (offset8 : BitVec 8) (s : State) (hc : s.passes c = true) :
    UndefinedBy s.cfg.cdtOutcome (.stc c pf uf nf wf rn crd cp offset8) s :=
  undefinedBy_of_exec _ _ _ (whenPasses_of_pass c s _ hc)

/-- The unallocated words of class 00 (30_encoding.md R147, R170 (a)). -/
theorem decode_undefDp (cfg : Config) (w : Word) (hclass : w.extractLsb' 25 3 = 0b000#3) (h7 : w.getLsbD 7 = true)
    (h4 : w.getLsbD 4 = true) (hmul : ¬ (w.extractLsb' 22 6 = 0#6 ∧ w.extractLsb' 4 4 = 0b1001#4))
    (hswap : ¬ (w.extractLsb' 23 5 = 0b00010#5 ∧ w.extractLsb' 20 2 = 0#2 ∧ w.extractLsb' 4 8 = 0b00001001#8)) :
    decode cfg w = .undefDp (Cond.ofBits (w.extractLsb' 28 4)) (w.extractLsb' 0 28) := by
  have h25 : w.getLsbD 25 = false := getLsbD_of_field hclass 0 (by decide)
  have h26 : w.getLsbD 26 = false := getLsbD_of_field hclass 1 (by decide)
  have h27 : w.getLsbD 27 = false := getLsbD_of_field hclass 2 (by decide)
  have hmul' : ¬ IsMultiply (w.extractLsb' 0 28) := by
    rwa [IsMultiply, extractLsb'_extractLsb'_low w 22 6 (by decide), extractLsb'_extractLsb'_low w 4 4 (by decide)]
  have hswap' : ¬ IsSwap (w.extractLsb' 0 28) := by
    rwa [IsSwap, extractLsb'_extractLsb'_low w 23 5 (by decide), extractLsb'_extractLsb'_low w 20 2 (by decide),
      extractLsb'_extractLsb'_low w 4 8 (by decide)]
  rw [decode, decodeClass00, h27, h26, h25, h7, h4, if_neg hmul', if_neg hswap']
  rfl

/-- The unallocated words of class 01 (30_encoding.md R148, R170 (b)). -/
theorem decode_undefSdt (cfg : Config) (w : Word) (hclass : w.extractLsb' 25 3 = 0b011#3) (h4 : w.getLsbD 4 = true) :
    decode cfg w = .undefSdt (Cond.ofBits (w.extractLsb' 28 4)) (w.extractLsb' 0 28) := by
  have h25 : w.getLsbD 25 = true := getLsbD_of_field hclass 0 (by decide)
  have h26 : w.getLsbD 26 = true := getLsbD_of_field hclass 1 (by decide)
  have h27 : w.getLsbD 27 = false := getLsbD_of_field hclass 2 (by decide)
  rw [decode, decodeClass01, h27, h26, h25, h4]
  rfl

/-- The words of LDC and STC (30_encoding.md R150). -/
theorem decode_cdt (cfg : Config) (w : Word) (hclass : w.extractLsb' 25 3 = 0b110#3) :
    decode cfg w =
      if w.getLsbD 20 then
        .ldc (Cond.ofBits (w.extractLsb' 28 4)) (w.getLsbD 24) (w.getLsbD 23) (w.getLsbD 22) (w.getLsbD 21)
          (w.extractLsb' 16 4) (w.extractLsb' 12 4) (w.extractLsb' 8 4) (w.extractLsb' 0 8)
      else
        .stc (Cond.ofBits (w.extractLsb' 28 4)) (w.getLsbD 24) (w.getLsbD 23) (w.getLsbD 22) (w.getLsbD 21)
          (w.extractLsb' 16 4) (w.extractLsb' 12 4) (w.extractLsb' 8 4) (w.extractLsb' 0 8) := by
  have h25 : w.getLsbD 25 = false := getLsbD_of_field hclass 0 (by decide)
  have h26 : w.getLsbD 26 = true := getLsbD_of_field hclass 1 (by decide)
  have h27 : w.getLsbD 27 = true := getLsbD_of_field hclass 2 (by decide)
  rw [decode, decodeClass11, h27, h26, h25]
  rfl

/-- Settles O38: the words decode to the constructors without a meaning, and each takes its outcome. -/
theorem undefinedInstructions : Obligations.UndefinedInstructions := by
  unfold Obligations.UndefinedInstructions
  refine fun s => ⟨fun w hc => ⟨?_, fun hclass => ?_⟩,
    fun c bits hc => ⟨undefinedBy_undefDp c bits s hc, undefinedBy_undefSdt c bits s hc⟩,
    fun c pf uf nf wf rn crd cp offset8 hc => ⟨undefinedBy_ldc c pf uf nf wf rn crd cp offset8 s hc,
      undefinedBy_stc c pf uf nf wf rn crd cp offset8 s hc⟩⟩
  · rintro (⟨hclass, h7, h4, hmul, hswap⟩ | ⟨hclass, h4⟩)
    · rw [decode_undefDp _ w hclass h7 h4 hmul hswap]
      exact undefinedBy_undefDp _ _ s hc
    · rw [decode_undefSdt _ w hclass h4]
      exact undefinedBy_undefSdt _ _ s hc
  · rw [decode_cdt _ w hclass]
    split
    · exact undefinedBy_ldc _ _ _ _ _ _ _ _ _ s hc
    · exact undefinedBy_stc _ _ _ _ _ _ _ _ _ s hc

end Sys2Proof.Machine
end

section
/-! SUPPORT. What a device answers, the start and the end of a step, the debug calls and `init`
  (20_memory.md R94, R97, R125;
60_exceptions.md R504, R530 to R545; 70_reset_and_hazards.md R600). -/

namespace Sys2Proof.Machine

/-! A callback and its reply. -/

/-- The state after a callback whose reply is the head of the list: the call recorded, the reply taken, its interrupt
call made. -/
def afterCall (call : DeviceCall) (r : DeviceReply) (rest : List DeviceReply) (s : State) : State :=
  replyInterrupt r { s with deviceReplies := rest, deviceCalls := call :: s.deviceCalls }

theorem afterCall_eq (call : DeviceCall) (r : DeviceReply) (rest : List DeviceReply) (s : State) :
    afterCall call r rest s = { s with
      deviceReplies := rest, deviceCalls := call :: s.deviceCalls,
      pinIrq := (afterCall call r rest s).pinIrq, pinFiq := (afterCall call r rest s).pinFiq,
      lastInterrupt := (afterCall call r rest s).lastInterrupt } :=
  replyInterrupt_eq ..

/-- Without an interrupt call the pins and the record stay. -/
theorem afterCall_quiet (call : DeviceCall) (r : DeviceReply) (rest : List DeviceReply) (s : State)
    (h : r.interrupt = none) :
    (afterCall call r rest s).pinIrq = s.pinIrq ∧ (afterCall call r rest s).pinFiq = s.pinFiq ∧
    (afterCall call r rest s).lastInterrupt = s.lastInterrupt := by
  rw [afterCall, replyInterrupt_none r _ h]
  exact ⟨rfl, rfl, rfl⟩

theorem callDevice_eq (call : DeviceCall) (s : State) (r : DeviceReply) (rest : List DeviceReply)
    (hr : s.deviceReplies = r :: rest) (hre : r.reenters = false) :
    callDevice call s =
      if r.fails then .abort (afterCall call r rest s) else .done r.value (afterCall call r rest s) := by
  simp [callDevice, nextReply, hr, hre, afterCall]

theorem callDevice_reenters (call : DeviceCall) (s : State) (r : DeviceReply) (rest : List DeviceReply)
    (hr : s.deviceReplies = r :: rest) (hre : r.reenters = true) :
    callDevice call s = .refused .deviceReenters := by
  simp [callDevice, nextReply, hr, hre]

theorem deviceFailed_of_abort (s : State) (h : s.cfg.devFail = .abort) : deviceFailed s = .abort s := by
  simp [deviceFailed, h]

theorem deviceFailed_of_refuse (s : State)
    (h : s.cfg.devFail = .refuse) : deviceFailed s = .refused .deviceFailure := by
  simp [deviceFailed, h]

theorem cfg_afterCall (call : DeviceCall) (r : DeviceReply) (rest : List DeviceReply) (s : State) :
    (afterCall call r rest s).cfg = s.cfg := by
  rw [afterCall_eq]

/-- What a device access gives, by the reply (20_memory.md R97, R98). -/
theorem deviceAccess_done (call : DeviceCall) (s : State) (r : DeviceReply) (rest : List DeviceReply)
    (hr : s.deviceReplies = r :: rest) (hre : r.reenters = false) (hfail : r.fails = false) :
    deviceAccess call s = .done r.value (afterCall call r rest s) := by
  simp [deviceAccess, callDevice_eq call s r rest hr hre, hfail]

theorem deviceAccess_fails (call : DeviceCall) (s : State) (r : DeviceReply) (rest : List DeviceReply)
    (hr : s.deviceReplies = r :: rest) (hre : r.reenters = false) (hfail : r.fails = true) :
    deviceAccess call s = deviceFailed (afterCall call r rest s) := by
  simp [deviceAccess, callDevice_eq call s r rest hr hre, hfail]

theorem deviceAccess_reenters (call : DeviceCall) (s : State) (r : DeviceReply) (rest : List DeviceReply)
    (hr : s.deviceReplies = r :: rest) (hre : r.reenters = true) :
    deviceAccess call s = .refused .deviceReenters := by
  simp [deviceAccess, callDevice_reenters call s r rest hr hre]

/-- A device access that fails aborts with the state after the call, or has no meaning. -/
theorem deviceAccess_abort (call : DeviceCall) (s : State) (r : DeviceReply) (rest : List DeviceReply)
    (hr : s.deviceReplies = r :: rest) (hre : r.reenters = false) (hfail : r.fails = true)
    (hdev : s.cfg.devFail = .abort) : deviceAccess call s = .abort (afterCall call r rest s) := by
  rw [deviceAccess_fails call s r rest hr hre hfail, deviceFailed_of_abort _ (by rwa [cfg_afterCall])]

theorem deviceAccess_refuse (call : DeviceCall) (s : State) (r : DeviceReply) (rest : List DeviceReply)
    (hr : s.deviceReplies = r :: rest) (hre : r.reenters = false) (hfail : r.fails = true)
    (hdev : s.cfg.devFail = .refuse) : deviceAccess call s = .refused .deviceFailure := by
  rw [deviceAccess_fails call s r rest hr hre hfail, deviceFailed_of_refuse _ (by rwa [cfg_afterCall])]

/-! The start of a step. -/

/-- Steps of two cores that start alike are alike. -/
theorem step_congr (s t : State) (hs : s.initialized = true) (ht : t.initialized = true) (hs' : s.stalled = false)
    (ht' : t.stalled = false) (hbp : s.bp = t.bp) (h : beginStep s = beginStep t) : step s = step t := by
  simp [step, hs, ht, hs', ht', hbp, h]

theorem stalled_of_pending (s : State) (h : s.fiqPending = true ∨ s.irqPending = true) : s.stalled = false := by
  rcases h with h | h <;> simp [State.stalled, h]

theorem stalled_of_awake (s : State) (h : s.waiting = false) : s.stalled = false := by
  simp [State.stalled, h]

theorem fiqPending_iff (s : State) : s.fiqPending = true ↔ s.pinFiq = true ∧ s.flagF = false := by
  simp [State.fiqPending]

theorem irqPending_iff (s : State) : s.irqPending = true ↔ s.pinIrq = true ∧ s.flagI = false := by
  simp [State.irqPending]

/-- Entry does not read the status. -/
theorem enter_status_comm (k : ExcKind) (link : Addr) (s : State) (st : Status) :
    enter k link { s with status := st } = { enter k link s with status := st } := by
  cases k <;> rfl

/-- Both masks keep a pin from being pending. -/
theorem irqPending_enter (k : ExcKind) (link : Addr) (s : State) : (enter k link s).irqPending = false := by
  obtain ⟨-, -, -, -, hI, -⟩ := enter_flags k link s
  simp [State.irqPending, hI]

/-- After the entry of a kind that leaves FIQ masked or not pending, the step starts with no interrupt to take. -/
theorem beginStep_enter (k : ExcKind) (link : Addr) (s : State) (hw : s.waiting = false)
    (hf : (enter k link s).fiqPending = false) :
    beginStep (enter k link s) = { enter k link s with status := .ok } :=
  beginStep_quiet _ ((enter_waiting ..).trans hw) hf (irqPending_enter ..)

theorem beginStep_of_fiq (s : State) (h : s.fiqPending = true) :
    beginStep s = enter .fiq (s.pc + s.cfg.linkValue.fiq) { s with waiting := false, status := .ok } := by
  have h' : State.fiqPending { s with waiting := false, status := .ok } = true := h
  rw [beginStep, sampleInterrupts, if_pos h']
  rfl

theorem beginStep_of_irq (s : State) (hf : s.fiqPending = false) (h : s.irqPending = true) :
    beginStep s = enter .irq (s.pc + s.cfg.linkValue.irq) { s with waiting := false, status := .ok } := by
  have hf' : State.fiqPending { s with waiting := false, status := .ok } = false := hf
  have h' : State.irqPending { s with waiting := false, status := .ok } = true := h
  rw [beginStep, sampleInterrupts, if_neg (by simp [hf']), if_pos h']
  rfl

theorem beginStep_of_none (s : State) (hf : s.fiqPending = false) (hi : s.irqPending = false) :
    beginStep s = { s with waiting := false, status := .ok } :=
  beginStep_quiet { s with waiting := false } rfl hf hi

/-- A step that takes an interrupt is the step of the state entered. -/
theorem step_enter (k : ExcKind) (link : Addr) (s : State) (hs : s.initialized = true)
    (hp : s.fiqPending = true ∨ s.irqPending = true)
    (hbegin : beginStep s = enter k link { s with waiting := false, status := .ok })
    (hf : (enter k link { s with waiting := false }).fiqPending = false) :
    step s = step (enter k link { s with waiting := false }) := by
  refine step_congr _ _ hs ((enter_initialized ..).trans hs) (stalled_of_pending s hp)
    (stalled_of_awake _ (enter_waiting ..)) (enter_bp k link { s with waiting := false }).symm ?_
  rw [hbegin, beginStep_enter k link { s with waiting := false } rfl hf]
  exact enter_status_comm k link { s with waiting := false } .ok

/-- Settles O49: the interrupt taken is sampled first, and then none is pending. -/
theorem interruptSampling : Obligations.InterruptSampling := by
  unfold Obligations.InterruptSampling
  refine fun s hs => ⟨fun hpin hF => ?_, fun hno hpin hI => ?_, fun hnofiq hnoirq => ?_⟩
  · have hfiq := (fiqPending_iff s).2 ⟨hpin, hF⟩
    refine step_enter .fiq _ s hs (.inl hfiq) (beginStep_of_fiq s hfiq) ?_
    simp [State.fiqPending]
  · have hirq := (irqPending_iff s).2 ⟨hpin, hI⟩
    have hnofiq : s.fiqPending = false := by rwa [← Bool.not_eq_true, fiqPending_iff]
    refine step_enter .irq _ s hs (.inr hirq) (beginStep_of_irq s hnofiq hirq) ?_
    obtain ⟨-, -, -, -, -, hF⟩ := enter_flags .irq (s.pc + s.cfg.linkValue.irq) { s with waiting := false }
    rw [State.fiqPending, hF, enter_pinFiq]
    exact hnofiq
  · rw [← fiqPending_iff, Bool.not_eq_true] at hnofiq
    rw [← irqPending_iff, Bool.not_eq_true] at hnoirq
    exact beginStep_of_none s hnofiq hnoirq

/-- Settles O51: a waiting core stalls exactly when no unmasked pin is set. -/
theorem waiting : Obligations.Waiting := by
  unfold Obligations.Waiting
  intro s hs hw
  rw [← fiqPending_iff, ← irqPending_iff]
  refine ⟨fun hi hf => step_stalled s hs (by simp [State.stalled, hw, hi, hf]), fun hp => ?_⟩
  exact step_congr s { s with waiting := false } hs hs (stalled_of_pending s hp.symm) (stalled_of_awake _ rfl) rfl rfl

/-- Settles O50: the call is dropped when I or a pin is set. -/
theorem interruptInjection : Obligations.InterruptInjection := by
  unfold Obligations.InterruptInjection
  intro s deviceId code hpin
  have hmask : s.interruptMask = s.flagI := by simp [State.interruptMask, hpin]
  refine ⟨rfl, fun h => ?_, fun hI hirq hfiq => ?_⟩
  · rw [hostInterrupt, State.interrupt, hmask, if_pos (by simpa [or_assoc] using h)]
  · rw [hostInterrupt, State.interrupt, hmask, if_neg (by simp [hI, hirq, hfiq]), hpin]

/-! Breakpoints, watchpoints and prefetch aborts. -/

/-- A bounded run that stops where the PC is keeps R15. -/
theorem resolveBreakpoint_pc (link : Addr) (s : State) (h : s.bounded = true) :
    resolveBreakpoint s.pc link s = { s with status := .breakpointHit } := by
  rw [resolveBreakpoint_of_bounded _ _ _ h, State.pc, r15Full_r15Pc]

/-- Settles O52: the Breakpoint at the PC, and the one a watchpoint hit becomes. -/
theorem debugStops : Obligations.DebugStops := by
  unfold Obligations.DebugStops
  refine ⟨fun s hs hw hf hi hbp => ?_, fun s w u t hs hfetch hexec hhit hroll => ?_⟩
  · have hbegin := beginStep_quiet s hw hf hi
    have hstep : step s = .next (breakAtPc { s with status := .ok }) := by
      have hbp' : maskBit s.bp (beginStep s).pc = true := by rw [hbegin]; exact hbp
      rw [step, if_neg (by simp [hs]), if_neg (by simp [stalled_of_awake s hw]), if_pos hbp', hbegin]
    refine ⟨fun hb => ?_, fun hb => ⟨_, hstep.trans (congrArg _ (resolveBreakpoint_of_unbounded _ _ _ hb)),
      entered_enter .softwareInterrupt _ { s with status := .ok } rfl,
      enter_eq_of_no_pin .softwareInterrupt _ { s with status := .ok } (by decide) (by decide)⟩⟩
    exact hstep.trans (congrArg _ (resolveBreakpoint_pc _ { s with status := .ok } hb))
  · have hu : AccessEffect { s with status := .ok } u := ((fetch_leaves ..).of_done hfetch).1
    have hcfg : u.cfg = s.cfg := hu.cfg
    have hstep : step s = .next (resolveBreakpoint t.pc t.pc { t with watchHit := false }) := by
      rw [step_of_fetch s u w hs hfetch, runWord_next w u t (by rwa [hcfg]), endStep, if_pos hhit, hroll]
      rfl
    refine ⟨fun hb => ?_, fun hb => ⟨_, hstep.trans (congrArg _ (resolveBreakpoint_of_unbounded _ _ _ hb)),
      raised_raise .softwareInterrupt (by decide) _ t⟩⟩
    exact hstep.trans (congrArg _ (resolveBreakpoint_pc _ { t with watchHit := false } hb))

/-- A step whose fetch aborts takes a prefetch abort. -/
theorem step_of_fetch_abort (s v : State) (hs : Fetches s) (hf : fetch s.pc { s with status := .ok } = .abort v) :
    step s = .next (takePrefetchAbort v) := by
  obtain ⟨hn, hw, hfiq, hirq, hbp⟩ := hs
  rw [step_quiet s hn hw hfiq hirq hbp, hf]

theorem step_of_fetch_refused (s : State) (r : Refusal) (hs : Fetches s)
    (hf : fetch s.pc { s with status := .ok } = .refused r) : step s = .refused r := by
  obtain ⟨hn, hw, hfiq, hirq, hbp⟩ := hs
  rw [step_quiet s hn hw hfiq hirq hbp, hf]

/-- Entry is told from the registers and R15 alone. -/
theorem Entered.of_core {m : Mode} {vector link : Addr} {setsF : Bool} {s t v : State}
    (h : Entered m vector setsF link v t) (hregs : v.regs = s.regs) (hr15 : v.r15 = s.r15) :
    Entered m vector setsF link s t := by
  cases s
  cases v
  cases hregs
  cases hr15
  exact h

/-- The prefetch abort of a fetch that left registers and R15 as they were. -/
theorem entered_takePrefetchAbort (s v : State) (hv : AccessEffect { s with status := .ok } v) :
    Entered .svc 0x0C#26 false (s.pc + s.cfg.linkValue.prefetchAbort) s (takePrefetchAbort v) := by
  have hpc : v.pc = s.pc := hv.pc
  have hcfg : v.cfg = s.cfg := hv.cfg
  rw [takePrefetchAbort, linkOffset, hpc, hcfg]
  exact (entered_enter .prefetchAbort _ v rfl).of_core hv.regs hv.r15

/-- A device that is missing its callback or fails: the read aborts or has no meaning, as `DEV_FAIL` says. -/
theorem devRead_word_abort (dev : Nat) (a : Addr) (s : State) (d : Device) (r : DeviceReply) (rest : List DeviceReply)
    (hd : s.devices[dev]? = some d) (hr : s.deviceReplies = r :: rest) (hre : r.reenters = false)
    (hfail : d.readWord = false ∨ r.fails = true) (hdev : s.cfg.devFail = .abort) :
    ∃ v, devRead dev true a s = .abort v := by
  cases hread : d.readWord with
  | false => exact ⟨s, by simp [devRead, hd, hread, deviceFailed_of_abort s hdev]⟩
  | true =>
    have hfails : r.fails = true := hfail.resolve_left (by simp [hread])
    refine ⟨afterCall (.readWord dev (pageOffset a)) r rest s, ?_⟩
    simp [devRead, hd, hread, deviceAccess_abort _ s r rest hr hre hfails hdev]

theorem devRead_word_refuse (dev : Nat) (a : Addr) (s : State) (d : Device) (r : DeviceReply)
    (rest : List DeviceReply)
    (hd : s.devices[dev]? = some d) (hr : s.deviceReplies = r :: rest) (hre : r.reenters = false)
    (hfail : d.readWord = false ∨ r.fails = true) (hdev : s.cfg.devFail = .refuse) :
    devRead dev true a s = .refused .deviceFailure := by
  cases hread : d.readWord with
  | false => simp [devRead, hd, hread, deviceFailed_of_refuse s hdev]
  | true =>
    have hfails : r.fails = true := hfail.resolve_left (by simp [hread])
    simp [devRead, hd, hread, deviceAccess_refuse _ s r rest hr hre hfails hdev]

/-- The walk of a fetch from a device page: the page, or a fault for want of a right. -/
theorem walk_fetch_device (s : State) (p : Perm) (dev : Nat)
    (hp : pageAt s.pages (s.pc.toNat / 4096) = some (.device p dev)) :
    walk s .fetch s.pc true = some (.device p dev) ∨ walk s .fetch s.pc true = none := by
  rcases hw : walk s .fetch s.pc true with _ | q
  · exact .inr rfl
  · exact .inl (((walk_eq_some ..).1 hw).1.symm.trans hp)

theorem walk_absent (s : State) (k : AccessKind) (a : Addr) (word : Bool) (h : pageAt s.pages (a.toNat / 4096) = none) :
    walk s k a word = none := by
  rcases hw : walk s k a word with _ | q
  · rfl
  · exact absurd (((walk_eq_some ..).1 hw).1.symm.trans h) (by simp)

theorem fetch_fault (a : Addr) (s : State) (h : walk s .fetch a true = none) : fetch a s = .abort s := by
  simp [fetch, h]

/-- Settles O54: the fetch aborts and the step takes the prefetch abort. -/
theorem prefetchAborts : Obligations.PrefetchAborts := by
  unfold Obligations.PrefetchAborts
  refine fun s hs => ⟨fun hp => ?_, fun p dev d r rest hp hd hr hre hfail => ⟨fun hdev => ?_, fun hdev hx => ?_⟩⟩
  · have hfetch := fetch_fault s.pc { s with status := .ok } (walk_absent { s with status := .ok } _ _ _ hp)
    exact ⟨_, step_of_fetch_abort s _ hs hfetch, entered_takePrefetchAbort s _ rfl,
      enter_eq_of_no_pin .prefetchAbort _ { s with status := .ok } (by decide) (by decide)⟩
  · have hfetch : ∃ v, fetch s.pc { s with status := .ok } = .abort v := by
      rcases walk_fetch_device { s with status := .ok } p dev hp with hwalk | hwalk
      · obtain ⟨v, hv⟩ := devRead_word_abort dev s.pc { s with status := .ok } d r rest hd hr hre hfail hdev
        exact ⟨v, (fetch_device _ _ p dev hwalk).trans hv⟩
      · exact ⟨_, fetch_fault _ _ hwalk⟩
    obtain ⟨v, hv⟩ := hfetch
    obtain ⟨heffect, hmem, -⟩ := (fetch_leaves ..).of_abort hv
    exact ⟨_, step_of_fetch_abort s v hs hv, entered_takePrefetchAbort s v heffect, (enter_mem ..).trans hmem⟩
  · refine step_of_fetch_refused s _ hs ((fetch_device _ _ p dev ?_).trans
      (devRead_word_refuse dev s.pc { s with status := .ok } d r rest hd hr hre hfail hdev))
    exact walk_fetch_pc { s with status := .ok } _ hp hx

/-! The debug calls. -/

theorem debugCall_of_init (t s : State) (h : s.initialized = true) : debugCall t s = (.ok, t) := by
  simp [debugCall, h]

theorem debugCall_before_init (t s : State) (h : s.initialized = false) : debugCall t s = (.invalidCpuState, s) := by
  simp [debugCall, h]

/-- Settles O53: each call is a `debugCall` of one mask. -/
theorem debugApi : Obligations.DebugApi := by
  unfold Obligations.DebugApi
  intro a b s same calls
  have hcalls : ∀ r ∈ calls, ∃ t, r = debugCall t s := by
    simp only [calls, List.forall_mem_cons]
    exact ⟨⟨_, rfl⟩, ⟨_, rfl⟩, ⟨_, rfl⟩, ⟨_, rfl⟩, ⟨_, rfl⟩, ⟨_, rfl⟩, ⟨_, rfl⟩, ⟨_, rfl⟩, by simp⟩
  refine ⟨fun hs r hr => ?_, fun hs => ?_⟩
  · obtain ⟨t, rfl⟩ := hcalls r hr
    exact debugCall_before_init t s hs
  · refine ⟨fun r hr => ?_, ?_⟩
    · obtain ⟨t, rfl⟩ := hcalls r hr
      rw [debugCall_of_init t s hs]
    · simp only [setBreakpoint, unsetBreakpoint, setReadWatchpoint, unsetReadWatchpoint, setWriteWatchpoint,
        unsetWriteWatchpoint, resetBreakpoints, resetWatchpoints, debugCall_of_init _ s hs, hasBreakpoint,
        hasReadWatchpoint, hasWriteWatchpoint, maskBit_maskSet, maskBit_maskClear, List.forall_mem_cons, same]
      simp [maskBit]

/-! `init`. -/

theorem pageAt_map (f : Nat → Page) (l : List Nat) (i : Nat) :
    pageAt (l.map fun j => (j, f j)) i = if i ∈ l then some (f i) else none := by
  induction l with
  | nil => rfl
  | cons j l ih =>
    rw [List.map_cons, pageAt, ih]
    by_cases h : j = i
    · simp [h]
    · simp [h, Ne.symm h]

theorem pageAt_ramPages (n : Nat) (perms : Nat → Perm) (i : Nat) :
    pageAt (ramPages n perms) i = if i < n then some (.ram (perms i)) else none := by
  rw [ramPages, pageAt_map, if_congr List.mem_range rfl rfl]

/-- R15 after `init`: SVC mode, I and F set, PC 0 (10_state.md R60). -/
theorem reset_r15 :
    modeOfBits ((0x0C000003#32).extractLsb' 0 2) = .svc ∧ (0x0C000003#32).getLsbD 27 = true ∧
    (0x0C000003#32).getLsbD 26 = true ∧ r15Pc 0x0C000003#32 = 0#26 := by
  decide

/-- Settles O55: the two failures, and the fields of the state after `init`. -/
theorem initialization : Obligations.Initialization := by
  unfold Obligations.Initialization
  intro memsize perms s size
  have hsize : roundedSize memsize = size := rfl
  have hspace : spaceBytes = 2 ^ 26 := rfl
  refine ⟨fun h => ?_, fun h hfail => ?_, fun h hfail => ?_⟩
  · rw [hostInit, hsize, hspace, if_pos h]
  · rw [hostInit, hsize, hspace, if_neg (by omega), if_pos hfail]
  · rw [hostInit, hsize, hspace, if_neg (by omega), if_neg (by simp [hfail])]
    obtain ⟨hmode, hI, hF, hpc⟩ := reset_r15
    exact ⟨rfl, rfl, hmode, hI, hF, hpc, rfl, rfl, rfl, rfl, fun a => ⟨rfl, rfl, rfl⟩, rfl, rfl,
      pageAt_ramPages _ perms⟩

end Sys2Proof.Machine
end

section
/-! SUPPORT. The coprocessor instructions and the hardware manager's operations (46_swi_coprocessor.md R410 to R430;
20_memory.md R120 to R123). -/

namespace Sys2Proof.Machine

/-! Coprocessor numbers and registers. -/

/-- Distinct numbers name distinct coprocessors (46_swi_coprocessor.md R410). -/
theorem coprocOf_cpNumber (cfg : Config) (hw : cfg.Wf) (k : Coproc) : coprocOf cfg (cpNumber cfg k) = some k := by
  have hnodup := hw.1
  simp only [Config.coprocNumbers, List.nodup_cons, List.mem_cons, List.not_mem_nil, or_false, not_or] at hnodup
  obtain ⟨⟨hmmu, hintctl⟩, hmmu_intctl, -⟩ := hnodup
  cases k with
  | hwmgr => simp [coprocOf, cpNumber]
  | mmu => simp [coprocOf, cpNumber, Ne.symm hmmu]
  | intctl => simp [coprocOf, cpNumber, Ne.symm hintctl, Ne.symm hmmu_intctl]

theorem coprocOf_unrecognised (cfg : Config) (cp : BitVec 4)
    (h : ∀ k, cp ≠ cpNumber cfg k) : coprocOf cfg cp = none := by
  have hhwmgr : cp ≠ cfg.cpHwmgr := h .hwmgr
  have hmmu : cp ≠ cfg.cpMmu := h .mmu
  have hintctl : cp ≠ cfg.cpIntctl := h .intctl
  simp [coprocOf, hhwmgr, hmmu, hintctl]

/-- What a coprocessor register holds after a write. -/
theorem cr_setCr (s : State) (j k : Coproc) (m n : CrNum) (v : Word) :
    (s.setCr k n v).cr j m = if j = k ∧ m = n then v else s.cr j m := by
  have hn : n.toNat = m.toNat ↔ m = n := by rw [BitVec.toNat_inj, eq_comm]
  cases j <;> cases k <;> simp [State.cr, State.setCr, Vector.getElem_set, hn]

theorem setCr_eq (s : State) (k : Coproc) (n : CrNum) (v : Word) :
    s.setCr k n v = { s with
      crHwmgr := (s.setCr k n v).crHwmgr, crMmu := (s.setCr k n v).crMmu, crIntctl := (s.setCr k n v).crIntctl } := by
  cases k <;> rfl

theorem setCr_hwmgr_eq (s : State) (n : CrNum) (v : Word) :
    s.setCr .hwmgr n v = { s with crHwmgr := (s.setCr .hwmgr n v).crHwmgr } := rfl

/-- A result written to the hardware manager's `crd`. -/
theorem hwResult_setHwCr (s : State) (crd : CrNum) (v : Word) : HwResult crd v s (setHwCr s crd v) := by
  refine ⟨?_, fun n hn => ?_, setCr_hwmgr_eq ..⟩
  · rw [setHwCr, cr_setCr, if_pos ⟨rfl, rfl⟩]
  · rw [setHwCr, cr_setCr, if_neg fun h => hn h.2]

/-! MCR and MRC. -/

/-- Settles O40: MCR writes the register of the coprocessor its number names. -/
theorem coprocRegisterWrite : Obligations.CoprocRegisterWrite := by
  unfold Obligations.CoprocRegisterWrite
  intro c op1 crn rd cp op2 crm s hc hw
  refine ⟨?_, fun hcp => ?_⟩
  · rintro k rfl
    have hexec : exec (.mcr c op1 crn rd (cpNumber s.cfg k) op2 crm) s = .next (s.setCr k crn (s.readFull rd)) := by
      refine (whenPasses_of_pass c s _ hc).trans ?_
      rw [coprocOf_cpNumber s.cfg hw k]
    refine ⟨_, hexec, ?_, fun j n hjn => ?_, setCr_eq ..⟩
    · rw [cr_setCr, if_pos ⟨rfl, rfl⟩]
    · rw [cr_setCr, if_neg hjn]
  · refine (whenPasses_of_pass c s _ hc).trans ?_
    rw [coprocOf_unrecognised s.cfg cp hcp]

/-- Settles O41: MRC reads the register of the coprocessor its number names. -/
theorem coprocRegisterRead : Obligations.CoprocRegisterRead := by
  unfold Obligations.CoprocRegisterRead
  intro c op1 crn rd cp op2 crm s hc hw
  refine ⟨?_, ?_, fun hcp => ?_⟩
  · rintro k rfl hrd
    have hexec : exec (.mrc c op1 crn rd (cpNumber s.cfg k) op2 crm) s = .next (s.setReg rd (s.cr k crn)) := by
      refine (whenPasses_of_pass c s _ hc).trans ?_
      rw [coprocOf_cpNumber s.cfg hw k]
      exact if_neg hrd
    exact ⟨_, hexec, reg_setReg_self s rd _ hrd, slotsKept_setReg s rd _, setReg_eq_of_ne s rd _ hrd⟩
  · rintro k rfl rfl
    refine (whenPasses_of_pass c s _ hc).trans ?_
    rw [coprocOf_cpNumber s.cfg hw k]
    exact if_pos rfl
  · refine (whenPasses_of_pass c s _ hc).trans ?_
    rw [coprocOf_unrecognised s.cfg cp hcp]

/-! CDP. -/

theorem exec_hwCdp (c : Cond) (op1 : BitVec 4) (crn crd : CrNum) (op2 : BitVec 3) (crm : CrNum) (s : State)
    (hc : s.passes c = true) (hw : s.cfg.Wf) :
    exec (hwCdp s.cfg c op1 crn crd op2 crm) s = hwmgrOperation op1 crn crd crm s := by
  refine (whenPasses_of_pass c s _ hc).trans ?_
  rw [show s.cfg.cpHwmgr = cpNumber s.cfg .hwmgr from rfl, coprocOf_cpNumber s.cfg hw .hwmgr]

/-- Settles O46: the numbers of the MMU and the interrupt controller, and a number that names nothing. -/
theorem otherCoprocOperations : Obligations.OtherCoprocOperations := by
  unfold Obligations.OtherCoprocOperations
  intro c op1 crn crd cp op2 crm s hc hw
  refine ⟨fun hcp => ?_, ?_, ?_⟩
  · refine (whenPasses_of_pass c s _ hc).trans ?_
    rw [coprocOf_unrecognised s.cfg cp hcp]
  · rintro rfl
    refine (whenPasses_of_pass c s _ hc).trans ?_
    rw [show s.cfg.cpMmu = cpNumber s.cfg .mmu from rfl, coprocOf_cpNumber s.cfg hw .mmu]
  · rintro rfl
    refine (whenPasses_of_pass c s _ hc).trans ?_
    rw [show s.cfg.cpIntctl = cpNumber s.cfg .intctl from rfl, coprocOf_cpNumber s.cfg hw .intctl]

/-- Distinct operation numbers select distinct operations (46_swi_coprocessor.md R420). -/
theorem hwmgrOperation_eq (crn crd crm : CrNum) (s : State) (hw : s.cfg.Wf) :
    hwmgrOperation s.cfg.opNumDevices crn crd crm s = .next (hwNumDevices crd s) ∧
    hwmgrOperation s.cfg.opMapMemory crn crd crm s = .next (hwMapMemory crn crd crm s) ∧
    hwmgrOperation s.cfg.opDeviceId crn crd crm s = .next (hwDeviceId crn crd s) ∧
    hwmgrOperation s.cfg.opLastInterrupt crn crd crm s = .next (hwLastInterrupt crn crd s) ∧
    hwmgrOperation s.cfg.opWait crn crd crm s = .next (hwWait s) ∧
    hwmgrOperation s.cfg.opClock crn crd crm s = .next (hwClock crd s) ∧
    hwmgrOperation s.cfg.opDeviceOp crn crd crm s = hwDeviceOp crn crd crm s := by
  have hnodup := hw.2.1
  simp only [Config.hwmgrOps, List.nodup_cons, List.mem_cons, List.not_mem_nil, or_false, not_or] at hnodup
  obtain ⟨⟨h12, h13, h14, h15, h16, h17⟩, ⟨h23, h24, h25, h26, h27⟩, ⟨h34, h35, h36, h37⟩, ⟨h45, h46, h47⟩,
    ⟨h56, h57⟩, h67, -⟩ := hnodup
  refine ⟨?_, ?_, ?_, ?_, ?_, ?_, ?_⟩
  · simp [hwmgrOperation]
  · simp [hwmgrOperation, Ne.symm h12]
  · simp [hwmgrOperation, Ne.symm h13, Ne.symm h23]
  · simp [hwmgrOperation, Ne.symm h14, Ne.symm h24, Ne.symm h34]
  · simp [hwmgrOperation, Ne.symm h15, Ne.symm h25, Ne.symm h35, Ne.symm h45]
  · simp [hwmgrOperation, Ne.symm h16, Ne.symm h26, Ne.symm h36, Ne.symm h46, Ne.symm h56]
  · simp [hwmgrOperation, Ne.symm h17, Ne.symm h27, Ne.symm h37, Ne.symm h47, Ne.symm h57, Ne.symm h67]

theorem hwmgrOperation_unnamed (op1 : BitVec 4) (crn crd crm : CrNum) (s : State) (h : op1 ∉ s.cfg.hwmgrOps) :
    hwmgrOperation op1 crn crd crm s = .next s := by
  simp only [Config.hwmgrOps, List.mem_cons, List.not_mem_nil, or_false, not_or] at h
  obtain ⟨h1, h2, h3, h4, h5, h6, h7⟩ := h
  simp [hwmgrOperation, h1, h2, h3, h4, h5, h6, h7]

/-- Settles O42: each query by its operation. -/
theorem hardwareQueries : Obligations.HardwareQueries := by
  unfold Obligations.HardwareQueries
  intro c crn crd op2 crm s hc hw
  obtain ⟨hnum, -, hid, hlast, -, hclock, -⟩ := hwmgrOperation_eq crn crd crm s hw
  simp only [exec_hwCdp _ _ _ _ _ _ s hc hw, hnum, hid, hlast, hclock]
  refine ⟨⟨_, rfl, hwResult_setHwCr ..⟩, ⟨_, rfl, fun d hd => ?_, fun hlen => ?_⟩, ⟨_, rfl, fun hne => ?_, ?_,
    fun n hd hn => ?_,
    rfl⟩, ⟨_, rfl, hwResult_setHwCr ..⟩, fun op1 hop => hwmgrOperation_unnamed op1 crn crd crm s hop⟩
  · have hd' : s.devices[(hwCr s crn).toNat]? = some d := hd
    rw [hwDeviceId, hd']
    exact hwResult_setHwCr ..
  · have hd' : s.devices[(hwCr s crn).toNat]? = none := List.getElem?_eq_none hlen
    rw [hwDeviceId, hd']
    exact hwResult_setHwCr ..
  · rw [hwLastInterrupt, setHwCr, setHwCr, cr_setCr, if_neg fun h => hne h.2, cr_setCr, if_pos ⟨rfl, rfl⟩]
  · rw [hwLastInterrupt, setHwCr, setHwCr, cr_setCr, if_pos ⟨rfl, rfl⟩]
  · rw [hwLastInterrupt, setHwCr, setHwCr, cr_setCr, if_neg fun h => hn h.2, cr_setCr, if_neg fun h => hd h.2]

/-- Settles O43: the wait is armed when neither mask is set. -/
theorem waitForInterrupt : Obligations.WaitForInterrupt := by
  unfold Obligations.WaitForInterrupt
  intro c crn crd op2 crm s hc hw
  obtain ⟨-, -, -, -, hwait, -, -⟩ := hwmgrOperation_eq crn crd crm s hw
  rw [exec_hwCdp _ _ _ _ _ _ s hc hw, hwait]
  refine ⟨fun hI hF => ?_, fun hmask => ?_⟩
  · rw [hwWait, if_pos (by simp [hI, hF])]
  · rw [hwWait, if_neg (by simpa [or_iff_not_imp_left] using hmask)]

theorem deviceReplies_afterCall (call : DeviceCall) (r : DeviceReply) (rest : List DeviceReply) (s : State) :
    (afterCall call r rest s).deviceReplies = rest := by
  rw [afterCall_eq]

theorem deviceCalls_afterCall (call : DeviceCall) (r : DeviceReply) (rest : List DeviceReply) (s : State) :
    (afterCall call r rest s).deviceCalls = call :: s.deviceCalls := by
  rw [afterCall_eq]

/-- A callback touches the pins, the record and the model's record of its devices only. -/
theorem afterCall_frame (call : DeviceCall) (r : DeviceReply) (rest : List DeviceReply) (s : State) :
    afterCall call r rest s = { s with
      deviceReplies := (afterCall call r rest s).deviceReplies, deviceCalls := (afterCall call r rest s).deviceCalls,
      pinIrq := (afterCall call r rest s).pinIrq, pinFiq := (afterCall call r rest s).pinFiq,
      lastInterrupt := (afterCall call r rest s).lastInterrupt } := by
  rw [deviceReplies_afterCall, deviceCalls_afterCall]
  exact afterCall_eq ..

/-- The state after a device operation whose reply is `r` (46_swi_coprocessor.md R427). -/
def operated (crn crd crm : CrNum) (r : DeviceReply) (rest : List DeviceReply) (s : State) : State :=
  setHwCr (afterCall (.operation (s.cr .hwmgr crd).toNat (s.cr .hwmgr crn) (s.cr .hwmgr crm)) r rest s) crd r.value

/-- The reply's value is the result, whether or not the reply says that it fails. -/
theorem hwDeviceOp_of_reply (crn crd crm : CrNum) (s : State) (d : Device) (r : DeviceReply) (rest : List DeviceReply)
    (hd : s.devices[(s.cr .hwmgr crd).toNat]? = some d) (hop : d.operation = true) (hr : s.deviceReplies = r :: rest)
    (hre : r.reenters = false) : hwDeviceOp crn crd crm s = .next (operated crn crd crm r rest s) := by
  have hd' : s.devices[(hwCr s crd).toNat]? = some d := hd
  have hreply : (nextReply s).1 = r := by simp [nextReply, hr]
  rw [hwDeviceOp, hd']
  dsimp only
  rw [if_neg (by simp [hop]), callDevice_eq _ s r rest hr hre, hreply]
  cases r.fails <;> rfl

theorem operated_spec (crn crd crm : CrNum) (r : DeviceReply) (rest : List DeviceReply) (s : State) :
    let t := operated crn crd crm r rest s
    t.cr .hwmgr crd = r.value ∧ (∀ n : CrNum, n ≠ crd → t.cr .hwmgr n = s.cr .hwmgr n) ∧
    t.deviceCalls = .operation (s.cr .hwmgr crd).toNat (s.cr .hwmgr crn) (s.cr .hwmgr crm) :: s.deviceCalls ∧
    t.deviceReplies = rest ∧
    t = { s with
      crHwmgr := t.crHwmgr, deviceCalls := t.deviceCalls, deviceReplies := t.deviceReplies, pinIrq := t.pinIrq,
      pinFiq := t.pinFiq, lastInterrupt := t.lastInterrupt } ∧
    (r.interrupt = none → t.pinIrq = s.pinIrq ∧ t.pinFiq = s.pinFiq ∧ t.lastInterrupt = s.lastInterrupt) := by
  intro t
  let call : DeviceCall := .operation (s.cr .hwmgr crd).toNat (s.cr .hwmgr crn) (s.cr .hwmgr crm)
  let u := afterCall call r rest s
  have hu := afterCall_frame call r rest s
  obtain ⟨hcr, hother, ht⟩ := hwResult_setHwCr u crd r.value
  refine ⟨hcr, fun n hn => (hother n hn).trans ?_, deviceCalls_afterCall .., deviceReplies_afterCall .., ?_,
    fun hi => afterCall_quiet _ r rest s hi⟩
  · have hreg : u.crHwmgr = s.crHwmgr := (congrArg State.crHwmgr hu :)
    rw [State.cr, State.cr, hreg]
  · exact ht.trans (congrArg (fun x : State => { x with crHwmgr := t.crHwmgr }) hu)

/-- Settles O45: the callback's result, or 0xFFFFFFFF without the device or the callback. -/
theorem deviceOperation : Obligations.DeviceOperation := by
  unfold Obligations.DeviceOperation
  intro c crn crd op2 crm s hc hw k
  obtain ⟨-, -, -, -, -, -, hop⟩ := hwmgrOperation_eq crn crd crm s hw
  simp only [exec_hwCdp _ _ _ _ _ _ s hc hw, hop]
  refine ⟨fun d r rest hd hoper hr hre => ?_, fun d r rest hd hoper hr hre => ?_, ?_⟩
  · rw [hwDeviceOp_of_reply crn crd crm s d r rest hd hoper hr hre]
    exact ⟨_, rfl, operated_spec ..⟩
  · have hd' : s.devices[(hwCr s crd).toNat]? = some d := hd
    simp [hwDeviceOp, hd', hoper, callDevice_reenters _ s r rest hr hre]
  · rintro (hlen | ⟨d, hd, hoper⟩)
    · have hd' : s.devices[(hwCr s crd).toNat]? = none := List.getElem?_eq_none hlen
      rw [hwDeviceOp, hd']
      exact ⟨_, rfl, hwResult_setHwCr ..⟩
    · have hd' : s.devices[(hwCr s crd).toNat]? = some d := hd
      rw [hwDeviceOp, hd']
      exact ⟨_, if_pos (by simp [hoper]), hwResult_setHwCr ..⟩

/-! Mapping memory (20_memory.md R120 to R123). -/

theorem rangeOk_iff (start stop : Nat) :
    rangeOk start stop = true ↔ start % 4096 = 0 ∧ stop % 4096 = 0 ∧ start < stop ∧ stop ≤ 2 ^ 26 := by
  simp [rangeOk, pageBytes, pageBits, spaceBytes, and_assoc]

theorem claimable_iff (t : List (Nat × Page)) (i : Nat) :
    claimable t i = true ↔ ∀ (p : Perm) (j : Nat), pageAt t i ≠ some (.device p j) := by
  unfold claimable
  split <;> simp_all

/-- What a mapping that is accepted leaves. -/
def mapped (k start stop : Nat) (d : Device) (s : State) : State :=
  { s with
    pages := (pagesOfRange start stop).foldl (claimPage s.cfg k) s.pages
    devices := s.devices.set k { d with range := some (start, stop) }
    mappings := ⟨k, start, stop, Config.mappingFlags s.draws⟩ :: s.mappings
    draws := s.draws + 1 }

theorem mapMemory_noDevice (k start stop : Nat) (s : State) (h : s.devices[k]? = none) :
    mapMemory k start stop s = (.noSuchDevice, s) := by
  simp [mapMemory, h]

theorem mapMemory_badRange (k start stop : Nat) (s : State) (d : Device) (hd : s.devices[k]? = some d)
    (h : rangeOk start stop = false) : mapMemory k start stop s = (s.cfg.badRangeStatus, s) := by
  simp [mapMemory, hd, h]

theorem mapMemory_taken (k start stop : Nat) (s : State) (d : Device) (hd : s.devices[k]? = some d)
    (h : rangeOk start stop = true) (hfree : (pagesOfRange start stop).all (claimable s.pages) = false) :
    mapMemory k start stop s = (.alreadyMapped, s) := by
  rw [mapMemory, hd]
  dsimp only
  rw [if_neg (by simp [h]), if_pos (by rw [hfree]; rfl)]

theorem mapMemory_free (k start stop : Nat) (s : State) (d : Device) (hd : s.devices[k]? = some d)
    (h : rangeOk start stop = true) (hfree : (pagesOfRange start stop).all (claimable s.pages) = true) :
    mapMemory k start stop s = if s.allocFails then (.memoryError, s) else (.ok, mapped k start stop d s) := by
  rw [mapMemory, hd]
  dsimp only
  rw [if_neg (by simp [h]), if_neg (by rw [hfree]; decide)]
  rfl

theorem mapMemory_cr (k start stop : Nat) (s : State) : (mapMemory k start stop s).2.crHwmgr = s.crHwmgr := by
  unfold mapMemory
  split
  · rfl
  · split
    · rfl
    · split
      · rfl
      · split <;> rfl

/-- What a mapping request answers, by the first check it fails. -/
theorem mapMemory_status (k start stop : Nat) (s : State) (hbad : s.cfg.badRangeStatus ≠ .ok)
    (r : Status × State) (hr : mapMemory k start stop s = r) :
    (s.devices.length ≤ k → r.1 = .noSuchDevice) ∧
    (k < s.devices.length → rangeOk start stop = false → r.1 ≠ .ok) ∧
    (k < s.devices.length → rangeOk start stop = true → (pagesOfRange start stop).all (claimable s.pages) = false →
      r.1 = .alreadyMapped) ∧
    (k < s.devices.length → rangeOk start stop = true → (pagesOfRange start stop).all (claimable s.pages) = true →
      r.1 = if s.allocFails then .memoryError else .ok) ∧
    (r.1 ≠ .ok → r.2 = s) ∧
    (r.1 = .ok → ∃ d, r.2 = mapped k start stop d s) := by
  subst hr
  rcases hd : s.devices[k]? with _ | d
  · have hk : s.devices.length ≤ k := List.getElem?_eq_none_iff.1 hd
    rw [mapMemory_noDevice k start stop s hd]
    simp [hk, Nat.not_lt.2 hk]
  · have hk : k < s.devices.length := (List.getElem?_eq_some_iff.1 hd).1
    cases hrange : rangeOk start stop with
    | false =>
      rw [mapMemory_badRange k start stop s d hd hrange]
      simp [hbad, hk]
    | true =>
      cases hfree : (pagesOfRange start stop).all (claimable s.pages) with
      | false =>
        rw [mapMemory_taken k start stop s d hd hrange hfree]
        simp [hk]
      | true =>
        rw [mapMemory_free k start stop s d hd hrange hfree]
        cases s.allocFails with
        | false => simpa [hk] using ⟨d, rfl⟩
        | true => simp [hk]

theorem claimable_range_iff (t : List (Nat × Page)) (start stop : Nat) :
    (pagesOfRange start stop).all (claimable t) = true ↔
      ∀ i, start / 4096 ≤ i ∧ i < stop / 4096 → ∀ (p : Perm) (j : Nat), pageAt t i ≠ some (.device p j) := by
  simp only [List.all_eq_true, mem_pagesOfRange, claimable_iff]

/-- Settles O44: the status by `mapMemory_status`, written to CRd of the state the mapping left. -/
theorem mapMemoryRequest : Obligations.MapMemoryRequest := by
  unfold Obligations.MapMemoryRequest
  intro c crn crd op2 crm s hc hw k start stop inRange rangeGood free
  obtain ⟨-, hmap, -⟩ := hwmgrOperation_eq crn crd crm s hw
  obtain ⟨hnone, hbad, htaken, hfree, herr, hok⟩ := mapMemory_status k start stop s hw.2.2.2.2.1 _ rfl
  have hfreeIff : (pagesOfRange start stop).all (claimable s.pages) = true ↔ free := claimable_range_iff ..
  have hrangeIff : rangeOk start stop = true ↔ rangeGood := rangeOk_iff ..
  obtain ⟨hcr, hother, ht⟩ := hwResult_setHwCr (mapMemory k start stop s).2 crd
    (statusValue s.cfg (mapMemory k start stop s).1)
  have hkept : ∀ n, (mapMemory k start stop s).2.cr .hwmgr n = s.cr .hwmgr n := fun n => by
    rw [State.cr, State.cr, mapMemory_cr]
  refine ⟨hwMapMemory crn crd crm s, (mapMemory k start stop s).1, (exec_hwCdp _ _ _ _ _ _ s hc hw).trans hmap, hcr,
    fun n hn => (hother n hn).trans (hkept n), hnone, fun hk hr => hbad hk ?_, fun hk hr hf => htaken hk
      (hrangeIff.2 hr) ?_,
    fun hk hr hf => hfree hk (hrangeIff.2 hr) (hfreeIff.2 hf), fun hst => ?_, fun hst => ?_⟩
  · rwa [← Bool.not_eq_true, hrangeIff]
  · rwa [← Bool.not_eq_true, hfreeIff]
  · exact ht.trans (congrArg (fun x : State => { x with crHwmgr := (hwMapMemory crn crd crm s).crHwmgr }) (herr hst))
  · obtain ⟨d, hd⟩ := hok hst
    have hpages : (hwMapMemory crn crd crm s).pages = (pagesOfRange start stop).foldl (claimPage s.cfg k) s.pages :=
      congrArg State.pages hd
    have hclaim := fun i => pageAt_claimPages s.cfg k _ (pagesOfRange_nodup start stop) s.pages i
    refine ⟨fun i hi => ?_, fun i hi => ?_, ⟨_, congrArg State.mappings hd⟩, hwMapMemory_eq ..⟩
    · rw [hpages]
      exact (hclaim i).1 ((mem_pagesOfRange ..).2 hi)
    · rw [hpages]
      exact (hclaim i).2 fun h => hi ((mem_pagesOfRange ..).1 h)

end Sys2Proof.Machine
end

section
/-! SUPPORT. Single transfers and swaps
  (43_single_transfer.md R300 to R313; 42_swap.md R281 to R285; 20_memory.md R97,
R98). -/

namespace Sys2Proof.Machine

/-! The instruction, once its operands are allowed. -/

theorem sdtRefusal_allowed {forms : TForms} {load pf wf : Bool} {rn rd : RegNum} {o : Offset}
    (h : SdtAllowed load pf wf rn rd o) : sdtRefusal forms load pf wf rn rd = none := by
  obtain ⟨hform, hr15, heq, -⟩ := h
  cases pf <;> cases wf <;> cases load <;> simp_all [sdtRefusal, isTForm, WritesBack]

/-- The instruction of allowed operands is its transfer. -/
theorem exec_sdtInstr (load byte : Bool) (c : Cond) (pf uf wf : Bool) (rn rd : RegNum) (o : Offset) (s : State)
    (hc : s.passes c = true) (h : SdtAllowed load pf wf rn rd o) :
    exec (sdtInstr load byte c pf uf wf rn rd o) s = sdtTransfer load byte pf uf wf rn rd (offsetValue o s) s := by
  cases o with
  | imm imm12 =>
    rw [sdtInstr, exec_sdtImm, whenPasses_of_pass _ _ _ hc, sdtImm, sdtRefusal_allowed h]
    rfl
  | reg shamt sh rm =>
    rw [sdtInstr, exec_sdtReg, whenPasses_of_pass _ _ _ hc, sdtReg, sdtRefusal_allowed h]
    exact if_neg h.2.2.2

theorem isTForm_allowed {load pf wf : Bool} {rn rd : RegNum} {o : Offset} (h : SdtAllowed load pf wf rn rd o) :
    isTForm pf wf = false := by
  have hform := h.1
  cases pf <;> cases wf <;> simp_all [isTForm]

/-- The access of an allowed transfer is made in the mode of the machine. -/
theorem sdtAccess_allowed {α : Type} {load pf wf : Bool} {rn rd : RegNum} {o : Offset}
    (h : SdtAllowed load pf wf rn rd o)
    (access : State → Access α) (s : State) : sdtAccess pf wf access s = access s := by
  simp [sdtAccess, isTForm_allowed h]

section transfer

variable {byte : Bool} {c : Cond} {pf uf wf : Bool} {rn rd : RegNum} {o : Offset} {s : State}

theorem exec_sdtInstr_offBus {load : Bool} (hc : s.passes c = true) (h : SdtAllowed load pf wf rn rd o)
    (hbus : 2 ^ 26 ≤ (sdtAddr pf uf rn o s).toNat) :
    exec (sdtInstr load byte c pf uf wf rn rd o) s = .next (raiseHere .addressException s) := by
  have hoff : onBus (sdtAddr pf uf rn o s) = false := by rw [← Bool.not_eq_true, onBus_iff]; omega
  rw [exec_sdtInstr load byte c pf uf wf rn rd o s hc h]
  exact if_pos (by rw [Bool.not_eq_true']; exact hoff)

/-- A load by the way its read ends (43_single_transfer.md R303, R304). -/
theorem exec_load (hc : s.passes c = true) (h : SdtAllowed true pf wf rn rd o)
    (hbus : (sdtAddr pf uf rn o s).toNat < 2 ^ 26) :
    (∀ v t, memRead (!byte) ((sdtAddr pf uf rn o s).setWidth 26) s = .done v t →
      exec (sdtInstr true byte c pf uf wf rn rd o) s =
        .next (sdtLoadInto rd v (sdtWriteback pf wf rn (sdtMoved uf rn o s) t))) ∧
    (∀ t, memRead (!byte) ((sdtAddr pf uf rn o s).setWidth 26) s = .abort t →
      exec (sdtInstr true byte c pf uf wf rn rd o) s = .next (sdtAbort pf wf rn (sdtMoved uf rn o s) t)) ∧
    (∀ r, memRead (!byte) ((sdtAddr pf uf rn o s).setWidth 26) s = .refused r →
      exec (sdtInstr true byte c pf uf wf rn rd o) s = .refused r) := by
  have hon : onBus (transferAddr pf uf (s.readBase rn) (offsetValue o s)) = true := (onBus_iff _).2 hbus
  rw [exec_sdtInstr true byte c pf uf wf rn rd o s hc h, sdtTransfer, if_neg
    (by rw [hon]; decide), if_pos rfl, sdtAccess_allowed h]
  have haddr : busAddr (transferAddr pf uf (s.readBase rn) (offsetValue o s)) =
    (sdtAddr pf uf rn o s).setWidth 26 := rfl
  rw [haddr]
  refine ⟨fun v t hr => ?_, fun t hr => ?_, fun r hr => ?_⟩ <;> rw [hr] <;> rfl

/-- A store by the way its write ends. -/
theorem exec_store (hc : s.passes c = true) (h : SdtAllowed false pf wf rn rd o)
    (hbus : (sdtAddr pf uf rn o s).toNat < 2 ^ 26) :
    (∀ u t, memWrite (!byte) ((sdtAddr pf uf rn o s).setWidth 26) (sdtStoreValue byte rd s) s = .done u t →
      exec (sdtInstr false byte c pf uf wf rn rd o) s = .next (sdtWriteback pf wf rn (sdtMoved uf rn o s) t)) ∧
    (∀ t, memWrite (!byte) ((sdtAddr pf uf rn o s).setWidth 26) (sdtStoreValue byte rd s) s = .abort t →
      exec (sdtInstr false byte c pf uf wf rn rd o) s = .next (sdtAbort pf wf rn (sdtMoved uf rn o s) t)) ∧
    (∀ r, memWrite (!byte) ((sdtAddr pf uf rn o s).setWidth 26) (sdtStoreValue byte rd s) s = .refused r →
      exec (sdtInstr false byte c pf uf wf rn rd o) s = .refused r) := by
  have hon : onBus (transferAddr pf uf (s.readBase rn) (offsetValue o s)) = true := (onBus_iff _).2 hbus
  rw [exec_sdtInstr false byte c pf uf wf rn rd o s hc h, sdtTransfer, if_neg (by rw [hon]; decide), if_neg
    (by decide), sdtAccess_allowed h]
  have haddr : busAddr (transferAddr pf uf (s.readBase rn) (offsetValue o s)) =
    (sdtAddr pf uf rn o s).setWidth 26 := rfl
  rw [haddr]
  refine ⟨fun v t hr => ?_, fun t hr => ?_, fun r hr => ?_⟩ <;> rw [hr] <;> rfl

end transfer

/-! What a completed transfer leaves. -/

theorem writesBack_iff (pf wf : Bool) : (!pf || wf) = true ↔ WritesBack pf wf := by
  simp [WritesBack]

theorem sdtWriteback_of_writesBack {pf wf : Bool} (h : WritesBack pf wf) (rn : RegNum) (moved : Word) (s : State) :
    sdtWriteback pf wf rn moved s = s.setReg rn moved := if_pos ((writesBack_iff pf wf).2 h)

theorem sdtWriteback_of_not {pf wf : Bool} (h : ¬ WritesBack pf wf) (rn : RegNum) (moved : Word) (s : State) :
    sdtWriteback pf wf rn moved s = s := if_neg (mt (writesBack_iff pf wf).1 h)

/-- Only the registers matter to what a slot holds. -/
theorem SlotsKept.of_regs_left {s t u : State} {l : List Slot} (h : SlotsKept u t l) (hr : u.regs = s.regs) :
    SlotsKept s t l := fun k hk hl => (h k hk hl).trans (getSlot_of_regs _ _ k hk hr)

/-- The base after a transfer whose access left the registers as they were. -/
theorem sdtWriteback_spec {pf wf : Bool} {rn : RegNum} {s u : State} (moved : Word) (hu : AccessEffect s u)
    (hrn : WritesBack pf wf → rn ≠ 15#4) :
    let t := sdtWriteback pf wf rn moved u
    (WritesBack pf wf → t.reg rn = moved ∧ SlotsKept s t [slotOf s.mode rn]) ∧
      (¬ WritesBack pf wf → t.regs = s.regs) ∧
    t.r15 = s.r15 ∧ t = { u with regs := t.regs } := by
  by_cases hwb : WritesBack pf wf
  · rw [sdtWriteback_of_writesBack hwb]
    refine ⟨fun _ => ⟨reg_setReg_self u rn moved (hrn hwb), ?_⟩, fun h => absurd hwb h,
      (setReg_r15 u rn moved (hrn hwb)).trans hu.r15, setReg_eq_of_ne u rn moved (hrn hwb)⟩
    rw [← hu.mode]
    exact (slotsKept_setReg u rn moved).of_regs_left hu.regs
  · rw [sdtWriteback_of_not hwb]
    exact ⟨fun h => absurd h hwb, fun _ => hu.regs, hu.r15, rfl⟩

/-- The registers after a load into a register: the value, and the base if it is written back. -/
theorem sdtLoadInto_spec {pf wf : Bool} {rn rd : RegNum} {s u : State} (v moved : Word) (hu : AccessEffect s u)
    (hrd : rd ≠ 15#4) (hrn : WritesBack pf wf → rn ≠ 15#4 ∧ rn ≠ rd) :
    let t := sdtLoadInto rd v (sdtWriteback pf wf rn moved u)
    t.reg rd = v ∧ (WritesBack pf wf → t.reg rn = moved) ∧
    (WritesBack pf wf → SlotsKept s t [slotOf s.mode rd, slotOf s.mode rn]) ∧
    (¬ WritesBack pf wf → SlotsKept s t [slotOf s.mode rd]) ∧ t.r15 = s.r15 ∧ t = { u with regs := t.regs } := by
  obtain ⟨hwb, hno, hr15, hframe⟩ := sdtWriteback_spec moved hu fun h => (hrn h).1
  generalize sdtWriteback pf wf rn moved u = w at *
  have hmode : w.mode = s.mode := mode_of_r15 _ _ hr15
  have hload : sdtLoadInto rd v w = w.setReg rd v := if_neg hrd
  rw [hload]
  have hkept := slotsKept_setReg w rd v
  rw [hmode] at hkept
  refine ⟨reg_setReg_self _ rd v hrd, fun h => ?_, fun h k hk hl => ?_, fun h => hkept.of_regs_left (hno h),
    (setReg_r15 _ rd v hrd).trans hr15, ?_⟩
  · rw [reg_setReg_ne _ rd rn v hrd (hrn h).2]
    exact (hwb h).1
  · simp only [List.mem_cons, List.not_mem_nil, or_false, not_or] at hl
    rw [hkept k hk (by simpa using hl.1)]
    exact (hwb h).2 k hk (by simpa using hl.2)
  · exact (setReg_eq_of_ne _ rd v hrd).trans (congrArg (fun x : State => { x with regs :=
    (w.setReg rd v).regs }) hframe)

/-- The PC field a write of the PC leaves, as a number. -/
theorem toNat_pc_writePc (s : State) (v : Word) : (s.writePc v).pc.toNat = v.toNat % 2 ^ 26 / 4 * 4 := by
  have hfield : (s.writePc v).r15.extractLsb' 2 24 = v.extractLsb' 2 24 := writePc_field s v
  rw [State.pc, r15Pc, hfield, BitVec.toNat_shiftLeft, BitVec.toNat_setWidth, BitVec.extractLsb'_toNat,
    Nat.shiftLeft_eq, Nat.shiftRight_eq_div_pow]
  have := v.isLt
  dsimp only [addressBits]
  omega

/-- A load into R15: the PC field, and the base if it is written back. -/
theorem sdtLoadInto_r15_spec {pf wf : Bool} {rn : RegNum} {s u : State} (v moved : Word) (hu : AccessEffect s u)
    (hrn : WritesBack pf wf → rn ≠ 15#4) :
    let t := sdtLoadInto 15#4 v (sdtWriteback pf wf rn moved u)
    PsrKept s t ∧ t.pc.toNat = v.toNat % 2 ^ 26 / 4 * 4 ∧
    (WritesBack pf wf → t.reg rn = moved ∧ SlotsKept s t [slotOf s.mode rn]) ∧
      (¬ WritesBack pf wf → t.regs = s.regs) ∧
    t = { u with regs := t.regs, r15 := t.r15 } := by
  obtain ⟨hwb, hno, hr15, hframe⟩ := sdtWriteback_spec moved hu hrn
  generalize sdtWriteback pf wf rn moved u = w at *
  have hload : sdtLoadInto 15#4 v w = w.writePc v := if_pos rfl
  rw [hload]
  refine ⟨?_, toNat_pc_writePc _ v, fun h => ⟨?_, (hwb h).2.of_regs rfl⟩, fun h => hno h, ?_⟩
  · rw [PsrKept, ← hr15]
    exact psrKept_writePc ..
  · rw [reg_congr w _ rn (hrn h) (State.writePc_regs ..) (mode_writePc ..)]
    exact (hwb h).1
  · exact congrArg (fun x : State => { x with r15 := (w.writePc v).r15 }) hframe

/-! Loads and stores on RAM. -/

theorem toNat_setWidth_of_lt (v : Word) (h : v.toNat < 2 ^ 26) : ((v.setWidth 26 : Addr)).toNat = v.toNat := by
  rw [BitVec.toNat_setWidth, Nat.mod_eq_of_lt h]

theorem SdtAllowed.base {load pf wf : Bool} {rn rd : RegNum} {o : Offset} (h : SdtAllowed load pf wf rn rd o) :
    WritesBack pf wf → rn ≠ 15#4 := h.2.1

theorem SdtAllowed.load_base {pf wf : Bool} {rn rd : RegNum} {o : Offset} (h : SdtAllowed true pf wf rn rd o) :
    WritesBack pf wf → rn ≠ 15#4 ∧ rn ≠ rd := fun hwb => ⟨h.2.1 hwb, h.2.2.1 rfl hwb⟩

/-- Settles O21: the read of RAM, then the registers by `sdtLoadInto_spec`. -/
theorem loadFromRam : Obligations.LoadFromRam := by
  unfold Obligations.LoadFromRam
  intro byte c pf uf wf rn rd o s hc hallowed hrd hbus hram
  obtain ⟨v, hv, hread⟩ := memRead_of_ramReadable s byte _ hram
  obtain ⟨hdone, -, -⟩ := exec_load (byte := byte) hc hallowed hbus
  have hu := ((memRead_effect ..).of_done hread)
  obtain ⟨hval, hbase, hkept, hkept', hr15, hframe⟩ := sdtLoadInto_spec v
    (sdtMoved uf rn o s) hu hrd hallowed.load_base
  rw [toNat_setWidth_of_lt _ hbus] at hv
  have hwatch := (congrArg State.watchHit hframe :)
  exact ⟨_, hdone v _ hread, (congrArg BitVec.toNat hval).trans hv, hbase, hkept, hkept', hr15,
    hframe.trans (by rw [hwatch]), hwatch⟩

/-- Settles O22: the read of RAM or of any page, then R15 by `sdtLoadInto_r15_spec`. -/
theorem loadIntoR15 : Obligations.LoadIntoR15 := by
  unfold Obligations.LoadIntoR15
  intro byte c pf uf wf rn o s hc hallowed hbus a
  obtain ⟨hdone, -, -⟩ := exec_load (byte := byte) hc hallowed hbus
  have hload := fun (v : Word) (u : State) (hread : memRead (!byte) a s = .done v u) =>
    sdtLoadInto_r15_spec v (sdtMoved uf rn o s) ((memRead_effect ..).of_done hread) hallowed.base
  refine ⟨fun hram => ?_, fun v u hread => ⟨_, hdone v u hread, hload v u hread⟩⟩
  obtain ⟨v, hv, hread⟩ := memRead_of_ramReadable s byte a hram
  obtain ⟨hpsr, hpc, hbase, hno, hframe⟩ := hload v _ hread
  have hwatch := (congrArg State.watchHit hframe :)
  rw [toNat_setWidth_of_lt _ hbus] at hv
  exact ⟨_, hdone v _ hread, hpsr, by rw [hpc, hv], hbase, hno, hwatch, hframe.trans (by rw [hwatch])⟩

/-- The low byte of a word, zero-extended, as a mask (20_memory.md R97). -/
theorem fieldAt_low_byte (v : Word) : fieldAt (v.extractLsb' 0 8) 0 = v &&& 0xFF#32 := by
  apply BitVec.eq_of_toNat_eq
  rw [toNat_fieldAt _ 0 (by decide), BitVec.extractLsb'_toNat, BitVec.toNat_and]
  change v.toNat >>> 0 % 2 ^ 8 * 2 ^ 0 = v.toNat &&& (2 ^ 8 - 1)
  rw [Nat.and_two_pow_sub_one_eq_mod, Nat.shiftRight_zero, pow_zero, Nat.mul_one]

/-- The bytes an access moves of a word, whether or not the word was cut to its low byte before. -/
theorem byteOfWord_cut (byte : Bool) (v : Word) (i : Nat) (hi : i < accessBytes byte) :
    byteOfWord (if byte then fieldAt (v.extractLsb' 0 8) 0 else v) i = byteOfWord v i := by
  cases byte with
  | false => rfl
  | true =>
    have hi0 : i = 0 := by simpa [accessBytes] using hi
    subst hi0
    exact extractLsb'_fieldAt_self _ 0 (by decide)

theorem stored_cut {m m' : List Host.Cell} {byte : Bool} {a : Nat} {v : Word}
    (h : Stored m m' byte a (if byte then fieldAt (v.extractLsb' 0 8) 0 else v)) : Stored m m' byte a v := by
  intro b
  rw [h b]
  split
  · rename_i hb
    exact byteOfWord_cut byte v _ (by omega)
  · rfl

/-- Settles O23: the write of RAM, then the base by `sdtWriteback_spec`. -/
theorem storeToRam : Obligations.StoreToRam := by
  unfold Obligations.StoreToRam
  intro byte c pf uf wf rn rd o s hc hallowed hmem hbus hram
  obtain ⟨m, hstored, hwrite⟩ := memWrite_of_ramWritable s byte _ (sdtStoreValue byte rd s) hmem hram
  obtain ⟨hdone, -, -⟩ := exec_store (byte := byte) hc hallowed hbus
  have hu := (memWrite_effect ..).of_done hwrite
  obtain ⟨hbase, hno, hr15, hframe⟩ := sdtWriteback_spec (sdtMoved uf rn o s) hu hallowed.base
  have hwatch := (congrArg State.watchHit hframe :)
  have hmem' := (congrArg State.mem hframe :)
  rw [toNat_setWidth_of_lt _ hbus] at hstored
  refine ⟨_, hdone _ _ hwrite, ?_, hbase, hno, hr15, hframe.trans (by rw [hwatch, hmem', hr15]), hwatch⟩
  rw [hmem']
  exact stored_cut hstored

/-! Aborts. -/

/-- Settles O25: the access aborts at once, and the abort only raises. -/
theorem transferAborts : Obligations.TransferAborts := by
  unfold Obligations.TransferAborts
  intro load byte c pf uf wf rn rd o s hc hallowed hdefault hbus hfault
  have habort : exec (sdtInstr load byte c pf uf wf rn rd o) s = .next (sdtAbort pf wf rn
    (sdtMoved uf rn o s) s) := by
    cases load with
    | true => exact (exec_load hc hallowed hbus).2.1 s (memRead_of_accessFaults s byte _ hfault)
    | false => exact (exec_store hc hallowed hbus).2.1 s (memWrite_of_accessFaults s byte _ _ hfault)
  rw [sdtAbort_default pf wf rn _ s hdefault] at habort
  exact ⟨_, habort, raised_dataAbort s⟩

/-! Swaps. -/

section swap

variable {byte : Bool} {c : Cond} {rn rd rm : RegNum} {s : State}

theorem exec_swapInstr (hc : s.passes c = true) : exec (swapInstr byte c rn rd rm) s = swapExec byte rn rd rm s := by
  cases byte <;> exact whenPasses_of_pass c s _ hc

theorem swapExec_r15
    (h : rn = 15#4 ∨ rd = 15#4 ∨ rm = 15#4) : swapExec byte rn rd rm s = .refused .swapR15 := if_pos h

theorem swapExec_offBus (hrn : rn ≠ 15#4) (hrd : rd ≠ 15#4) (hrm : rm ≠ 15#4) (hbus : 2 ^ 26 ≤ (s.reg rn).toNat) :
    swapExec byte rn rd rm s = .next (raiseHere .addressException s) := by
  have hoff : onBus (s.reg rn) = false := by rw [← Bool.not_eq_true, onBus_iff]; omega
  rw [swapExec, if_neg (by simp [hrn, hrd, hrm]), if_pos (by rw [hoff]; rfl)]

/-- A swap by the way its accesses end (42_swap.md R281, R283). -/
theorem swapExec_accesses (hrn : rn ≠ 15#4) (hrd : rd ≠ 15#4) (hrm : rm ≠ 15#4) (hbus : (s.reg rn).toNat < 2 ^ 26) :
    (∀ t, memRead (!byte) ((s.reg rn).setWidth 26) s = .abort t →
      swapExec byte rn rd rm s = .next (raiseHere .dataAbort t)) ∧
    (∀ old t, memRead (!byte) ((s.reg rn).setWidth 26) s = .done old t →
      (∀ u, memWrite (!byte) ((s.reg rn).setWidth 26) (swapValue byte rm s) t = .abort u →
        swapExec byte rn rd rm s = .next (raiseHere .dataAbort u)) ∧
      (∀ u, memWrite (!byte) ((s.reg rn).setWidth 26) (swapValue byte rm s) t = .done () u →
        swapExec byte rn rd rm s = .next (u.setReg rd old))) := by
  have hon : onBus (s.reg rn) = true := (onBus_iff _).2 hbus
  have haddr : busAddr (s.reg rn) = (s.reg rn).setWidth 26 := rfl
  rw [swapExec, if_neg (by simp [hrn, hrd, hrm]), if_neg (by rw [hon]; decide), haddr]
  refine ⟨fun t hread => ?_, fun old t hread => ⟨fun u hwrite => ?_, fun u hwrite => ?_⟩⟩
  · rw [hread]
  · rw [hread]
    dsimp only
    rw [hwrite]
  · rw [hread]
    dsimp only
    rw [hwrite]

end swap

/-- Rd written after accesses that left the registers as they were. -/
theorem setReg_spec {s u : State} (rd : RegNum) (v : Word) (hu : AccessEffect s u) (hrd : rd ≠ 15#4) :
    (u.setReg rd v).reg rd = v ∧ SlotsKept s (u.setReg rd v) [slotOf s.mode rd] ∧ (u.setReg rd v).r15 = s.r15 ∧
    u.setReg rd v = { u with regs := (u.setReg rd v).regs } := by
  refine ⟨reg_setReg_self u rd v hrd, ?_, (setReg_r15 u rd v hrd).trans hu.r15, setReg_eq_of_ne u rd v hrd⟩
  rw [← hu.mode]
  exact (slotsKept_setReg u rd v).of_regs_left hu.regs

/-- Settles O19: the read, the write of the state after it, then Rd. -/
theorem swapExchanges : Obligations.SwapExchanges := by
  unfold Obligations.SwapExchanges
  intro byte c rn rd rm s hc hrn hrd hrm hbus a
  obtain ⟨-, hswap⟩ := swapExec_accesses (byte := byte) hrn hrd hrm hbus
  refine ⟨fun hmem hreadable hwritable => ?_, fun old u w hread hwrite => ?_⟩
  · obtain ⟨old, hold, hread⟩ := memRead_of_ramReadable s byte a hreadable
    obtain ⟨m, hstored, hwrite⟩ := memWrite_of_ramWritable { s with watchHit := s.watchHit || maskBit s.wr a } byte a
      (swapValue byte rm s) hmem hwritable
    have hu := ((memRead_effect ..).of_done hread).trans ((memWrite_effect ..).of_done hwrite)
    obtain ⟨hval, hkept, hr15, hframe⟩ := setReg_spec rd old hu hrd
    have hwatch := (congrArg State.watchHit hframe :)
    have hmem' := (congrArg State.mem hframe :)
    have ha : a.toNat = (s.reg rn).toNat := toNat_setWidth_of_lt _ hbus
    rw [ha] at hold hstored
    refine ⟨_, (exec_swapInstr hc).trans ((hswap old _ hread).2 _ hwrite),
      (congrArg BitVec.toNat hval).trans hold, ?_,
      hkept, hr15, hframe.trans (by rw [hwatch, hmem', hr15]), hwatch⟩
    rw [hmem']
    exact stored_cut hstored
  · have hu := ((memRead_effect ..).of_done hread).trans ((memWrite_effect ..).of_done hwrite)
    rw [← fieldAt_low_byte] at hwrite
    obtain ⟨hval, hkept, -, hframe⟩ := setReg_spec rd old hu hrd
    exact ⟨_, (exec_swapInstr hc).trans ((hswap old u hread).2 w hwrite), hval, hkept, hframe⟩

/-- A data abort after accesses that left the registers and R15 as they were. -/
theorem entered_dataAbort {s u : State} (hu : AccessEffect s u) :
    Entered .svc 0x10#26 false s.instrAddr s (raise .dataAbort u.instrAddr u) := by
  rw [hu.instrAddr]
  exact (entered_enter .dataAbort s.instrAddr { u with watchHit := false } rfl).of_core hu.regs hu.r15

/-- Settles O20: the read faults, or the write does after it. -/
theorem swapAborts : Obligations.SwapAborts := by
  unfold Obligations.SwapAborts
  intro byte c rn rd rm s hc
  refine ⟨fun h => (exec_swapInstr hc).trans (swapExec_r15 h), fun hrn hrd hrm hbus => ?_⟩
  intro a
  obtain ⟨habort, hswap⟩ := swapExec_accesses (byte := byte) hrn hrd hrm hbus
  have hfault : AccessFaults s false byte a →
      ∃ t, exec (swapInstr byte c rn rd rm) s = .next t ∧ Raised 0x10#26 s.instrAddr s t := fun h => by
    refine ⟨_, (exec_swapInstr hc).trans (habort s (memRead_of_accessFaults s byte a h)), ?_⟩
    rw [raiseHere_dataAbort]
    exact raised_dataAbort s
  refine ⟨fun hb halign => hfault (.inr (.inr ⟨hb, halign⟩)), hfault, fun old u w hread hwrite => ?_⟩
  rw [← fieldAt_low_byte] at hwrite
  have heffect := ((memRead_effect ..).of_done hread).trans ((memWrite_effect ..).of_abort hwrite)
  have hmem : w.mem = s.mem :=
    (memWrite_abort_mem _ _ _ _ _ hwrite).trans ((memRead_leaves ..).of_done hread).2
  refine ⟨_, (exec_swapInstr hc).trans ((hswap old u hread).1 w hwrite), ?_, ?_⟩
  · rw [raiseHere_dataAbort]
    exact entered_dataAbort heffect
  · rw [raiseHere_dataAbort, raise_mem, hmem]

/-- Settles O24: an address off the bus raises the address exception before any access. -/
theorem addressExceptions : Obligations.AddressExceptions := by
  unfold Obligations.AddressExceptions
  refine ⟨fun load byte c pf uf wf rn rd o s hc hallowed hbus => ⟨_, exec_sdtInstr_offBus hc hallowed hbus,
    raised_raiseHere .addressException (by decide) s⟩, fun byte c rn rd rm s hc hrn hrd hrm hbus => ?_⟩
  exact ⟨_, (exec_swapInstr hc).trans (swapExec_offBus hrn hrd hrm hbus), raised_raiseHere .addressException
    (by decide) s⟩

end Sys2Proof.Machine
end

section
/-! SUPPORT. Single transfers on device pages (20_memory.md R97, R98; 70_reset_and_hazards.md R613). -/

namespace Sys2Proof.Machine

/-! `DevRead` and `DevWrite` by what the device answers. -/

/-- The callback a load calls. -/
def readCall (byte : Bool) (dev : Nat) (off : BitVec pageBits) : DeviceCall :=
  if byte then .readByte dev off else .readWord dev off

/-- The callback a store of `v` calls. -/
def writeCall (byte : Bool) (dev : Nat) (off : BitVec pageBits) (v : Word) : DeviceCall :=
  if byte then .writeByte dev off (v.extractLsb' 0 8) else .writeWord dev off v

section device

variable {byte : Bool} {dev : Nat} {a : Addr} {v : Word} {s : State} {d : Device} {r : DeviceReply} {rest : List DeviceReply}

theorem devRead_done (hd : s.devices[dev]? = some d) (hhas : (if byte then d.readByte else d.readWord) = true)
    (hr : s.deviceReplies = r :: rest) (hre : r.reenters = false) (hfail : r.fails = false) :
    devRead dev (!byte) a s =
      .done (if byte then r.value &&& 0xFF#32 else r.value) (afterCall (readCall byte dev
        (pageOffset a)) r rest s) := by
  rw [← fieldAt_low_byte]
  cases byte <;> simp_all [devRead, deviceAccess_done _ s r rest hr hre hfail, readCall]

theorem devRead_abort (hd : s.devices[dev]? = some d) (hhas : (if byte then d.readByte else d.readWord) = true)
    (hr : s.deviceReplies = r :: rest) (hre : r.reenters = false) (hfail : r.fails = true)
      (hdev : s.cfg.devFail = .abort) :
    devRead dev (!byte) a s = .abort (afterCall (readCall byte dev (pageOffset a)) r rest s) := by
  cases byte <;> simp_all [devRead, deviceAccess_abort _ s r rest hr hre hfail hdev, readCall]

theorem devRead_refuse (hd : s.devices[dev]? = some d) (hhas : (if byte then d.readByte else d.readWord) = true)
    (hr : s.deviceReplies = r :: rest) (hre : r.reenters = false) (hfail : r.fails = true)
      (hdev : s.cfg.devFail = .refuse) :
    devRead dev (!byte) a s = .refused .deviceFailure := by
  cases byte <;> simp_all [devRead, deviceAccess_refuse _ s r rest hr hre hfail hdev]

theorem devRead_reenters (hd : s.devices[dev]? = some d) (hhas : (if byte then d.readByte else d.readWord) = true)
    (hr : s.deviceReplies = r :: rest) (hre : r.reenters = true) : devRead dev
      (!byte) a s = .refused .deviceReenters := by
  cases byte <;> simp_all [devRead, deviceAccess_reenters _ s r rest hr hre]

theorem devRead_missing (hd : s.devices[dev]? = some d) (hhas : (if byte then d.readByte else d.readWord) = false) :
    devRead dev (!byte) a s = deviceFailed s := by
  cases byte <;> simp_all [devRead]

theorem devWrite_done (hd : s.devices[dev]? = some d) (hhas : (if byte then d.writeByte else d.writeWord) = true)
    (hr : s.deviceReplies = r :: rest) (hre : r.reenters = false) (hfail : r.fails = false) :
    devWrite dev (!byte) a v s = .done r.value (afterCall (writeCall byte dev (pageOffset a) v) r rest s) := by
  cases byte <;> simp_all [devWrite, deviceAccess_done _ s r rest hr hre hfail, writeCall]

theorem devWrite_abort (hd : s.devices[dev]? = some d) (hhas : (if byte then d.writeByte else d.writeWord) = true)
    (hr : s.deviceReplies = r :: rest) (hre : r.reenters = false) (hfail : r.fails = true)
      (hdev : s.cfg.devFail = .abort) :
    devWrite dev (!byte) a v s = .abort (afterCall (writeCall byte dev (pageOffset a) v) r rest s) := by
  cases byte <;> simp_all [devWrite, deviceAccess_abort _ s r rest hr hre hfail hdev, writeCall]

theorem devWrite_refuse (hd : s.devices[dev]? = some d) (hhas : (if byte then d.writeByte else d.writeWord) = true)
    (hr : s.deviceReplies = r :: rest) (hre : r.reenters = false) (hfail : r.fails = true)
      (hdev : s.cfg.devFail = .refuse) :
    devWrite dev (!byte) a v s = .refused .deviceFailure := by
  cases byte <;> simp_all [devWrite, deviceAccess_refuse _ s r rest hr hre hfail hdev]

theorem devWrite_reenters (hd : s.devices[dev]? = some d) (hhas : (if byte then d.writeByte else d.writeWord) = true)
    (hr : s.deviceReplies = r :: rest) (hre : r.reenters = true) :
    devWrite dev (!byte) a v s = .refused .deviceReenters := by
  cases byte <;> simp_all [devWrite, deviceAccess_reenters _ s r rest hr hre]

theorem devWrite_missing_word (hd : s.devices[dev]? = some d) (hhas : d.writeWord = false) :
    devWrite dev true a v s = deviceFailed s := by
  simp [devWrite, hd, hhas]

theorem devWrite_missing_byte (hd : s.devices[dev]? = some d) (hhas : d.writeByte = false) :
    devWrite dev false a v s = .refused .deviceByteStore := by
  simp [devWrite, hd, hhas]

end device

theorem memRead_device_refused (word : Bool) (a : Addr) (s : State) (p : Perm) (dev : Nat) (r : Refusal)
    (hw : walk s .read a word = some (.device p dev)) (hd : devRead dev word a s = .refused r) :
    memRead word a s = .refused r := by
  simp [memRead, hw, hd]

theorem memWrite_device_refused (word : Bool) (a : Addr) (v : Word) (s : State) (p : Perm) (dev : Nat) (r : Refusal)
    (hw : walk s .write a word = some (.device p dev)) (hd : devWrite dev word a v s = .refused r) :
    memWrite word a v s = .refused r := by
  simp [memWrite, hw, hd]

/-- The in-page offset of an address on the bus (20_memory.md R97). -/
theorem pageOffset_setWidth (v : Word) : pageOffset (v.setWidth 26) = (v &&& 0xFFF#32).setWidth 12 := by
  rw [pageOffset_eq_setWidth]
  apply BitVec.eq_of_toNat_eq
  rw [BitVec.toNat_setWidth, BitVec.toNat_setWidth, BitVec.toNat_setWidth, BitVec.toNat_and]
  change v.toNat % 2 ^ 26 % 2 ^ 12 = (v.toNat &&& (2 ^ 12 - 1)) % 2 ^ 12
  rw [Nat.and_two_pow_sub_one_eq_mod, Nat.mod_mod]
  omega

/-- What differs after a completed transfer on a device page: `v` is the state after the callback. -/
theorem device_frame {s v t : State} {w : Bool}
    (hv : v = { s with
      deviceReplies := v.deviceReplies, deviceCalls := v.deviceCalls, pinIrq := v.pinIrq, pinFiq := v.pinFiq,
      lastInterrupt := v.lastInterrupt })
    (ht : t = { { v with watchHit := w } with regs := t.regs }) :
    t = { s with
      regs := t.regs, watchHit := t.watchHit, deviceCalls := t.deviceCalls, deviceReplies := t.deviceReplies,
      pinIrq := t.pinIrq, pinFiq := t.pinFiq, lastInterrupt := t.lastInterrupt } := by
  cases s
  cases v
  cases t
  simp only [State.mk.injEq] at *
  simp_all

theorem accessEffect_afterCall (call : DeviceCall) (r : DeviceReply) (rest : List DeviceReply) (s : State) :
    AccessEffect s (afterCall call r rest s) := by
  have hframe := afterCall_frame call r rest s
  generalize afterCall call r rest s = v at *
  cases s
  cases v
  simp only [AccessEffect, State.mk.injEq] at *
  simp_all

theorem afterCall_mem (call : DeviceCall) (r : DeviceReply) (rest : List DeviceReply) (s : State) :
    (afterCall call r rest s).mem = s.mem := by
  rw [afterCall_eq]

theorem afterCall_watchHit (call : DeviceCall) (r : DeviceReply) (rest : List DeviceReply) (s : State) :
    (afterCall call r rest s).watchHit = s.watchHit := by
  rw [afterCall_eq]

/-- The abort of a transfer after a callback, under the default of `SDT_ABORT_WRITEBACK`. -/
theorem sdtAbort_afterCall (pf wf : Bool) (rn : RegNum) (moved : Word) (call : DeviceCall) (r : DeviceReply)
    (rest : List DeviceReply) (s : State) (h : s.cfg.sdtAbortWriteback = false) :
    let t := sdtAbort pf wf rn moved (afterCall call r rest s)
    Entered .svc 0x10#26 false s.instrAddr s t ∧ t.mem = s.mem := by
  rw [sdtAbort_default pf wf rn moved _ (by rwa [cfg_afterCall])]
  exact ⟨entered_dataAbort (accessEffect_afterCall ..), (raise_mem ..).trans (afterCall_mem ..)⟩

/-- Settles O26: the read of the device, by what it answers, then the registers. -/
theorem deviceLoad : Obligations.DeviceLoad := by
  unfold Obligations.DeviceLoad
  intro byte c pf uf wf rn rd o s dev d hc hallowed hrd hbus hreadable hd has off
  obtain ⟨p, hwalk⟩ := hreadable.walk
  obtain ⟨hdone, habort, hrefused⟩ := exec_load (byte := byte) hc hallowed hbus
  have hoff := pageOffset_setWidth (sdtAddr pf uf rn o s)
  have hdefault := sdtAbort_default pf wf rn (sdtMoved uf rn o s) s
  refine ⟨fun r rest hr hre hhas => ⟨fun hfail => ?_, fun hfail hdev hwb => ?_, fun hfail hdev => ?_⟩,
    fun r rest hr hre hhas => ?_, fun hhas hdev => ?_, fun hhas hdev hwb => ?_⟩
  · have hread := memRead_device_done _ _ _ _ _ _ _ hwalk (devRead_done hd hhas hr hre hfail)
    obtain ⟨hval, hbase, hkept, hkept', hr15, hframe⟩ :=
      sdtLoadInto_spec (if byte then r.value &&& 0xFF#32 else r.value) (sdtMoved uf rn o s)
        ((memRead_effect ..).of_done hread) hrd hallowed.load_base
    have hcalls := (congrArg State.deviceCalls hframe :)
    refine ⟨_, hdone _ _ hread, hval, ?_, (congrArg State.deviceReplies hframe :).trans (deviceReplies_afterCall ..),
      fun h => ⟨hbase h, hkept h⟩, hkept', device_frame (afterCall_frame ..) hframe, ?_, fun hi => ?_⟩
    · rw [hcalls]
      exact (deviceCalls_afterCall ..).trans (by rw [hoff]; rfl)
    · exact (congrArg State.watchHit hframe :).trans (by rw [afterCall_watchHit])
    · obtain ⟨hirq, hfiq, hlast⟩ := afterCall_quiet _ r rest s hi
      exact ⟨(congrArg State.pinIrq hframe :).trans hirq, (congrArg State.pinFiq hframe :).trans hfiq,
        (congrArg State.lastInterrupt hframe :).trans hlast⟩
  · exact ⟨_, habort _ (memRead_device_abort _ _ _ _ _ _ hwalk (devRead_abort hd hhas hr hre hfail hdev)),
      sdtAbort_afterCall _ _ _ _ _ _ _ _ hwb⟩
  · exact hrefused _ (memRead_device_refused _ _ _ _ _ _ hwalk (devRead_refuse hd hhas hr hre hfail hdev))
  · exact hrefused _ (memRead_device_refused _ _ _ _ _ _ hwalk (devRead_reenters hd hhas hr hre))
  · exact hrefused _ (memRead_device_refused _ _ _ _ _ _ hwalk
      ((devRead_missing hd hhas).trans (deviceFailed_of_refuse s hdev)))
  · refine ⟨_, habort _ (memRead_device_abort _ _ _ _ _ _ hwalk
      ((devRead_missing hd hhas).trans (deviceFailed_of_abort s hdev))), ?_⟩
    rw [hdefault hwb]
    exact raised_dataAbort s

theorem setWidth_eq_extractLsb'_byte (v : Word) : v.setWidth 8 = v.extractLsb' 0 8 := by
  apply BitVec.eq_of_toNat_eq
  rw [BitVec.toNat_setWidth, BitVec.extractLsb'_toNat, Nat.shiftRight_zero]

/-- A byte store hands the device the low byte of the register. -/
theorem writeCall_sdtStoreValue (byte : Bool) (dev : Nat) (off : BitVec pageBits) (rd : RegNum) (s : State) :
    writeCall byte dev off (sdtStoreValue byte rd s) =
      if byte then .writeByte dev off ((s.readFull rd).setWidth 8) else .writeWord dev off (s.readFull rd) := by
  cases byte with
  | false => rfl
  | true =>
    rw [setWidth_eq_extractLsb'_byte]
    exact congrArg (DeviceCall.writeByte dev off) (extractLsb'_fieldAt_self _ 0 (by decide))

/-- Settles O27: the write of the device, by what it answers, then the base. -/
theorem deviceStore : Obligations.DeviceStore := by
  unfold Obligations.DeviceStore
  intro byte c pf uf wf rn rd o s dev d hc hallowed hbus hwritable hd has off
  obtain ⟨p, hwalk⟩ := hwritable.walk
  obtain ⟨hdone, habort, hrefused⟩ := exec_store (byte := byte) hc hallowed hbus
  have hoff := pageOffset_setWidth (sdtAddr pf uf rn o s)
  have hdefault := sdtAbort_default pf wf rn (sdtMoved uf rn o s) s
  refine ⟨fun r rest hr hre hfail hhas => ?_, fun r rest hr hre hfail hhas hdev => ?_,
    fun r rest hr hre hfail hhas hdev hwb => ?_, fun r rest hr hre hhas => ?_, fun hb hhas => ?_,
      fun hb hhas hdev => ?_,
    fun hb hhas hdev hwb => ?_⟩
  · have hwrite := memWrite_device_done _ _ _ _ _ _ _ _ hwalk (devWrite_done
    (v := sdtStoreValue byte rd s) hd hhas hr hre hfail)
    obtain ⟨hbase, hno, hr15, hframe⟩ := sdtWriteback_spec (sdtMoved uf rn o s) ((memWrite_effect ..).of_done hwrite)
      hallowed.base
    have hcalls := (congrArg State.deviceCalls hframe :)
    refine ⟨_, hdone _ _ hwrite, ?_, (congrArg State.deviceReplies hframe :).trans
      (deviceReplies_afterCall ..), hbase, hno,
      device_frame (afterCall_frame ..) hframe, ?_, fun hi => ?_⟩
    · rw [hcalls]
      exact (deviceCalls_afterCall ..).trans (by rw [hoff, writeCall_sdtStoreValue])
    · exact (congrArg State.watchHit hframe :).trans (by rw [afterCall_watchHit])
    · obtain ⟨hirq, hfiq, hlast⟩ := afterCall_quiet _ r rest s hi
      exact ⟨(congrArg State.pinIrq hframe :).trans hirq, (congrArg State.pinFiq hframe :).trans hfiq,
        (congrArg State.lastInterrupt hframe :).trans hlast⟩
  · exact hrefused _ (memWrite_device_refused _ _ _ _ _ _ _ hwalk (devWrite_refuse hd hhas hr hre hfail hdev))
  · exact ⟨_, habort _ (memWrite_device_abort _ _ _ _ _ _ _ hwalk (devWrite_abort hd hhas hr hre hfail hdev)),
      sdtAbort_afterCall _ _ _ _ _ _ _ _ hwb⟩
  · exact hrefused _ (memWrite_device_refused _ _ _ _ _ _ _ hwalk (devWrite_reenters hd hhas hr hre))
  · subst hb
    exact hrefused _ (memWrite_device_refused _ _ _ _ _ _ _ hwalk (devWrite_missing_byte hd hhas))
  · subst hb
    exact hrefused _ (memWrite_device_refused _ _ _ _ _ _ _ hwalk
      ((devWrite_missing_word hd hhas).trans (deviceFailed_of_refuse s hdev)))
  · subst hb
    refine ⟨_, habort _ (memWrite_device_abort _ _ _ _ _ _ _ hwalk
      ((devWrite_missing_word hd hhas).trans (deviceFailed_of_abort s hdev))), ?_⟩
    rw [hdefault hwb]
    exact raised_dataAbort s

end Sys2Proof.Machine
end

section
/-! SUPPORT. The operand combinations the spec refuses, and the T forms under their alternative (41_multiply.md R264;
43_single_transfer.md R301, R307; 44_block_transfer.md R347; 92_eei_decisions.md D15). -/

namespace Sys2Proof.Machine

/-! Refusals. -/

/-- A multiply with R15 among its operands, or with Rd = Rm, is refused. -/
theorem mulRefusal_some (rd rm : RegNum) (ops : List RegNum) (h : rd = rm ∨ 15#4 ∈ ops) :
    mulRefusal rd rm ops = some .multiplyRdEqRm ∨ mulRefusal rd rm ops = some .multiplyR15 := by
  unfold mulRefusal
  by_cases h15 : 15#4 ∈ ops
  · exact .inr (if_pos (List.contains_iff_mem.2 h15))
  · exact .inl ((if_neg (mt List.contains_iff_mem.1 h15)).trans (if_pos (h.resolve_right h15)))

theorem exec_mulInstr_refused (acc : Bool) (c : Cond) (sf : Bool) (rd rn rs rm : RegNum) (s : State)
    (hc : s.passes c = true) (h : rd = rm ∨ rd = 15#4 ∨ rm = 15#4 ∨ rs = 15#4 ∨ (acc = true ∧ rn = 15#4)) :
    exec (mulInstr acc c sf rd rn rs rm) s = .refused .multiplyRdEqRm ∨
    exec (mulInstr acc c sf rd rn rs rm) s = .refused .multiplyR15 := by
  cases acc with
  | false =>
    have hops : rd = rm ∨ 15#4 ∈ [rd, rs, rm] := by
      rcases h with h | h | h | h | ⟨h, -⟩ <;> simp_all
    refine (mulRefusal_some rd rm _ hops).imp (fun hr => ?_) fun hr => ?_ <;>
    · refine (whenPasses_of_pass c s _ hc).trans ?_
      rw [hr]
  | true =>
    have hops : rd = rm ∨ 15#4 ∈ [rd, rn, rs, rm] := by
      rcases h with h | h | h | h | ⟨-, h⟩ <;> simp_all
    refine (mulRefusal_some rd rm _ hops).imp (fun hr => ?_) fun hr => ?_ <;>
    · refine (whenPasses_of_pass c s _ hc).trans ?_
      rw [hr]

/-- The names a single transfer is refused under. -/
theorem sdtRefusal_some {forms : TForms} {load pf wf : Bool} {rn rd : RegNum} {r : Refusal}
    (h : sdtRefusal forms load pf wf rn rd = some r) :
    r = .transferTForm ∨ r = .transferWritebackR15 ∨ r = .loadWritebackRnEqRd := by
  unfold sdtRefusal at h
  split at h
  · cases h; exact .inl rfl
  · split at h
    · cases h; exact .inr (.inl rfl)
    · split at h
      · cases h; exact .inr (.inr rfl)
      · cases h

theorem ite_some_eq_none_iff {α : Type} {c : Prop} [Decidable c] {v : α} {x : Option α} :
    (if c then some v else x) = none ↔ ¬ c ∧ x = none := by
  by_cases h : c <;> simp [h]

/-- What is not refused, but for the offset register (43_single_transfer.md R301). -/
theorem sdtRefusal_none_iff (forms : TForms) (load pf wf : Bool) (rn rd : RegNum) :
    sdtRefusal forms load pf wf rn rd = none ↔
      ¬ ((pf = false ∧ wf = true) ∧ forms = .refuse) ∧ (WritesBack pf wf → rn ≠ 15#4) ∧
      (load = true → WritesBack pf wf → rn ≠ rd) := by
  rw [sdtRefusal, ite_some_eq_none_iff, ite_some_eq_none_iff, ite_some_eq_none_iff]
  simp only [isTForm, Bool.and_eq_true, Bool.not_eq_true', decide_eq_true_iff, writesBack_iff, not_and, and_true, Ne,
    and_imp]

/-- An operand combination that is allowed but for the T form is refused by none of the other rules. -/
theorem sdtInstr_refused (load byte : Bool) (c : Cond) (pf uf wf : Bool) (rn rd : RegNum) (o : Offset) (s : State)
    (hc : s.passes c = true) (hnot : ¬ SdtAllowed load pf wf rn rd o)
    (hforms : s.cfg.tForms = .refuse ∨ ¬ SdtAllowed load pf (pf && wf) rn rd o) :
    ∃ r : Refusal, exec (sdtInstr load byte c pf uf wf rn rd o) s = .refused r ∧
      (r = .transferTForm ∨ r = .transferWritebackR15 ∨ r = .loadWritebackRnEqRd ∨ r = .transferOffsetR15) := by
  rcases hr : sdtRefusal s.cfg.tForms load pf wf rn rd with _ | r
  · obtain ⟨hform, hbase, hne⟩ := (sdtRefusal_none_iff ..).1 hr
    have hwb : WritesBack pf (pf && wf) → WritesBack pf wf := by cases pf <;> simp [WritesBack]
    have hplain : ¬ (pf = false ∧ (pf && wf) = true) := by cases pf <;> simp
    cases o with
    | imm imm12 =>
      rcases hforms with hforms | hforms
      · exact absurd ⟨fun h => hform ⟨h, hforms⟩, hbase, hne, trivial⟩ hnot
      · exact absurd ⟨hplain, fun h => hbase (hwb h), fun hl h => hne hl (hwb h), trivial⟩ hforms
    | reg shamt sh rm =>
      have hrm : rm = 15#4 := by
        by_contra hrm
        rcases hforms with hforms | hforms
        · exact hnot ⟨fun h => hform ⟨h, hforms⟩, hbase, hne, hrm⟩
        · exact hforms ⟨hplain, fun h => hbase (hwb h), fun hl h => hne hl (hwb h), hrm⟩
      refine ⟨.transferOffsetR15, ?_, .inr (.inr (.inr rfl))⟩
      rw [sdtInstr, exec_sdtReg, whenPasses_of_pass _ _ _ hc, sdtReg, hr]
      exact if_pos hrm
  · refine ⟨r, ?_, ?_⟩
    · cases o with
      | imm imm12 => rw [sdtInstr, exec_sdtImm, whenPasses_of_pass _ _ _ hc, sdtImm, hr]
      | reg shamt sh rm => rw [sdtInstr, exec_sdtReg, whenPasses_of_pass _ _ _ hc, sdtReg, hr]
    · rcases sdtRefusal_some hr with h | h | h
      · exact .inl h
      · exact .inr (.inl h)
      · exact .inr (.inr (.inl h))

/-- A block transfer is refused by the first rule that its operands break (44_block_transfer.md R347). -/
theorem exec_bdtInstr (load : Bool) (c : Cond) (pf uf sf wf : Bool) (rn : RegNum) (reglist : BitVec 16) (s : State)
    (hc : s.passes c = true) :
    exec (bdtInstr load c pf uf sf wf rn reglist) s = bdtExec load pf uf sf wf rn reglist s := by
  cases load <;> exact whenPasses_of_pass c s _ hc

theorem bdtExec_refused {load pf uf sf wf : Bool} {rn : RegNum} {reglist : BitVec 16} {s : State} {r : Refusal}
    (h : bdtRefusal s.cfg.blockS load sf wf rn reglist = some r) :
    bdtExec load pf uf sf wf rn reglist s = .refused r := by
  rw [bdtExec, h]

/-! T forms under their alternative. -/

theorem mode_inUser (s : State) : (inUser s).mode = .usr := by
  have hbits : (inUser s).r15.extractLsb' 0 2 = modeBits .usr := by
    unfold inUser
    simp (disch := omega) [BitVec.extractLsb'_or]
  rw [State.mode, hbits]
  rfl

/-- Only the mode changes: the masks stay. -/
theorem sameMasks_inUser (s : State) : SameMasks (inUser s).r15 s := by
  have hkept : ∀ i, 2 ≤ i → i < 32 → (inUser s).r15.getLsbD i = s.r15.getLsbD i := fun i h2 hi => by
    have hsub : 2 + (i - 2) = i := by omega
    unfold inUser
    rw [BitVec.getLsbD_or, getLsbD_fieldAt, getLsbD_fieldAt, BitVec.getLsbD_extractLsb', hsub,
      BitVec.getLsbD_of_ge (modeBits .usr) (i - 0) (by omega)]
    have hlt : i - 2 < 30 := by omega
    simp [h2, hi, hlt]
  exact ⟨hkept 27 (by decide) (by decide), hkept 26 (by decide) (by decide)⟩

/-- An access that the mode does not matter to ends as in USR, and R15 is put back. -/
theorem asUser_eq {α : Type} (access : State → Access α) (s : State)
    (hcore : access (inUser s) = (access s).onState (State.withCore s.regs (inUser s).r15))
    (heffect : (access s).Leaves (AccessEffect s)) : asUser access s = access s := by
  have hback : ∀ t, AccessEffect s t → ({ State.withCore s.regs (inUser s).r15 t with r15 := s.r15 } : State) = t :=
    fun t ht => by
      rw [← ht.regs, ← ht.r15]
  rw [asUser, hcore]
  cases h : access s with
  | done v t =>
    rw [h] at heffect
    exact congrArg _ (hback t heffect)
  | abort t =>
    rw [h] at heffect
    exact congrArg _ (hback t heffect)
  | refused r => rfl

/-- A page that gives the right gives it in every mode. -/
theorem walk_inUser (s : State) (kind : AccessKind) (a : Addr) (word : Bool)
    (h : s.mode = .usr ∨ ∀ p, pageAt s.pages (a.toNat / 4096) = some p → permAllows s.cfg kind p.perm = true) :
    walk (inUser s) kind a word = walk s kind a word := by
  rcases h with hm | hright
  · exact walk_congr _ _ _ _ _ rfl ((mode_inUser s).trans hm.symm) rfl
  · rw [← pageOf_eq] at hright
    unfold walk
    rw [show (inUser s).pages = s.pages from rfl, show (inUser s).cfg = s.cfg from rfl]
    cases hp : pageAt s.pages (pageOf a) with
    | none => rfl
    | some p => simp [hright p hp]

theorem asUser_memRead (word : Bool) (a : Addr) (s : State)
    (h : walk (inUser s) .read a word = walk s .read a word) : asUser (memRead word a) s = memRead word a s :=
  asUser_eq _ s (memRead_withCore s.regs (inUser s).r15 s word a (sameMasks_inUser s) h) (memRead_effect word a s)

theorem asUser_memWrite (word : Bool) (a : Addr) (v : Word) (s : State)
    (h : walk (inUser s) .write a word = walk s .write a word) : asUser (memWrite word a v) s = memWrite word a v s :=
  asUser_eq _ s (memWrite_withCore s.regs (inUser s).r15 s word a v (sameMasks_inUser s) h)
    (memWrite_effect word a v s)

/-- The kind of access of a load or a store. -/
def sdtKind (load : Bool) : AccessKind :=
  if load then .read else .write

/-- A T form whose access ends as in the mode of the machine is the plain post-indexed form. -/
theorem sdtTransfer_tForm (load byte uf : Bool) (rn rd : RegNum) (offset : Word) (s : State)
    (h : onBus (s.readBase rn) = true →
      walk (inUser s) (sdtKind load) (busAddr (s.readBase rn)) (!byte) =
        walk s (sdtKind load) (busAddr (s.readBase rn)) (!byte)) :
    sdtTransfer load byte false uf true rn rd offset s = sdtTransfer load byte false uf false rn rd offset s := by
  have haddr : transferAddr false uf (s.readBase rn) offset = s.readBase rn := rfl
  simp only [sdtTransfer, haddr]
  cases hbus : onBus (s.readBase rn) with
  | false => rfl
  | true =>
    cases load with
    | true =>
      have hread : sdtAccess false true (memRead (!byte) (busAddr (s.readBase rn))) s =
          sdtAccess false false (memRead (!byte) (busAddr (s.readBase rn))) s := asUser_memRead _ _ s (h hbus)
      rw [hread]
      rfl
    | false =>
      have hwrite : sdtAccess false true (memWrite (!byte) (busAddr (s.readBase rn)) (sdtStoreValue byte rd s)) s =
          sdtAccess false false (memWrite (!byte) (busAddr (s.readBase rn)) (sdtStoreValue byte rd s)) s :=
        asUser_memWrite _ _ _ s (h hbus)
      rw [hwrite]
      rfl

/-- Under the alternative of `T_FORMS` an allowed post-indexed form is not refused as a T form. -/
theorem exec_sdtInstr_tForm (load byte : Bool) (c : Cond) (uf : Bool) (rn rd : RegNum) (o : Offset) (s : State)
    (hc : s.passes c = true) (hforms : s.cfg.tForms = .userAccess) (h : SdtAllowed load false false rn rd o) :
    exec (sdtInstr load byte c false uf true rn rd o) s =
      sdtTransfer load byte false uf true rn rd (offsetValue o s) s := by
  obtain ⟨-, hbase, hne, hoff⟩ := h
  have hrefusal : sdtRefusal s.cfg.tForms load false true rn rd = none :=
    (sdtRefusal_none_iff ..).2 ⟨fun hr => absurd (hforms.symm.trans hr.2) (by decide), fun _ => hbase (.inl rfl),
      fun hl _ => hne hl (.inl rfl)⟩
  cases o with
  | imm imm12 =>
    rw [sdtInstr, exec_sdtImm, whenPasses_of_pass _ _ _ hc, sdtImm, hrefusal]
    rfl
  | reg shamt sh rm =>
    rw [sdtInstr, exec_sdtReg, whenPasses_of_pass _ _ _ hc, sdtReg, hrefusal]
    exact if_neg hoff

/-- A right that USR misses is a fault of the walk in USR. -/
theorem walk_inUser_fault (s : State) (kind : AccessKind) (a : Addr) (word : Bool) (p : Page)
    (hp : pageAt s.pages (a.toNat / 4096) = some p) (hchecked : .usr ∈ s.cfg.permCheckModes)
    (hright : permAllows s.cfg kind p.perm = false) : walk (inUser s) kind a word = none := by
  rcases hw : walk (inUser s) kind a word with _ | q
  · rfl
  · obtain ⟨hq, hperm, -⟩ := (walk_eq_some ..).1 hw
    cases hp.symm.trans hq
    exact absurd (hright.symm.trans (hperm (by rw [mode_inUser]; exact hchecked))) (by decide)

/-- A T form whose access faults in USR aborts and leaves the rest. -/
theorem sdtTransfer_tForm_abort (load byte uf : Bool) (rn rd : RegNum) (offset : Word) (s : State)
    (hbus : onBus (s.readBase rn) = true)
    (hfault : walk (inUser s) (sdtKind load) (busAddr (s.readBase rn)) (!byte) = none) :
    sdtTransfer load byte false uf true rn rd offset s =
      .next (sdtAbort false true rn (movedAddr uf (s.readBase rn) offset) s) := by
  have haddr : transferAddr false uf (s.readBase rn) offset = s.readBase rn := rfl
  simp only [sdtTransfer, haddr, hbus]
  cases load with
  | true =>
    have hread : sdtAccess false true (memRead (!byte) (busAddr (s.readBase rn))) s = .abort s := by
      change asUser _ s = _
      rw [asUser, memRead_fault _ _ _ hfault]
      rfl
    rw [hread]
    rfl
  | false =>
    have hwrite : sdtAccess false true (memWrite (!byte) (busAddr (s.readBase rn)) (sdtStoreValue byte rd s)) s =
        .abort s := by
      change asUser _ s = _
      rw [asUser, memWrite_fault _ _ _ _ hfault]
      rfl
    rw [hwrite]
    rfl

/-- The right of a page that a load or a store needs. -/
theorem permAllows_sdtKind (cfg : Config) (load : Bool) (p : Perm) :
    permAllows cfg (sdtKind load) p = if load then p.r else p.w := by
  cases load <;> rfl

/-- Settles O34: the refusals, one rule after the other, and the T forms by the walk in USR. -/
theorem operandRestrictions : Obligations.OperandRestrictions := by
  unfold Obligations.OperandRestrictions
  refine fun c s hc => ⟨fun acc sf rd rn rs rm h => exec_mulInstr_refused acc c sf rd rn rs rm s hc h,
    fun load byte pf uf wf rn rd o hnot hforms => sdtInstr_refused load byte c pf uf wf rn rd o s hc hnot hforms,
    fun load byte uf rn rd o hforms hallowed => ⟨fun hright => ?_, fun p hp hno hchecked hdefault hbus => ?_⟩,
    fun load pf uf sf wf rn reglist => ⟨fun hempty => ?_, fun hne hwf hrn => ?_, fun hne hwf hrn hsf hub => ?_⟩⟩
  · rw [exec_sdtInstr_tForm load byte c uf rn rd o s hc hforms hallowed,
      exec_sdtInstr load byte c false uf false rn rd o s hc hallowed]
    refine sdtTransfer_tForm load byte uf rn rd _ s fun hbus => walk_inUser s _ _ _
      (hright.imp_right fun hr p hp => ?_)
    rw [permAllows_sdtKind]
    rw [busAddr, toNat_setWidth_of_lt _ ((onBus_iff _).1 hbus)] at hp
    exact hr p hp
  · rw [exec_sdtInstr_tForm load byte c uf rn rd o s hc hforms hallowed,
      sdtTransfer_tForm_abort load byte uf rn rd _ s ((onBus_iff _).2 hbus), sdtAbort_default _ _ _ _ s hdefault]
    · exact ⟨_, rfl, raised_dataAbort s⟩
    · refine walk_inUser_fault s _ _ _ p ?_ hchecked ((permAllows_sdtKind ..).trans hno)
      rw [busAddr, toNat_setWidth_of_lt _ hbus]
      exact hp
  · exact (exec_bdtInstr load c pf uf sf wf rn reglist s hc).trans (bdtExec_refused (by simp [bdtRefusal, hempty]))
  · exact (exec_bdtInstr load c pf uf sf wf rn reglist s hc).trans (bdtExec_refused
    (by simp [bdtRefusal, hne, hwf, hrn]))
  · have hbank : usesUserBank s.cfg.blockS load sf reglist = true := by
      rw [usesUserBank_eq]
      simp only [hsf, Bool.true_and, Bool.not_eq_true', ← Bool.not_eq_true, Bool.and_eq_true]
      exact hub
    exact (exec_bdtInstr load c pf uf sf wf rn reglist s hc).trans
      (bdtExec_refused (by simp [bdtRefusal, hne, hwf, hrn, hbank]))

end Sys2Proof.Machine
end

section
/-! SUPPORT. The register list, the running address and the write-back of a block transfer
  (44_block_transfer.md R340 to R347).
-/

namespace Sys2Proof.Machine

/-! The list and its addresses. -/

theorem rankOf_succ (reglist : BitVec 16) (n : Nat) :
    rankOf reglist (n + 1) = rankOf reglist n + if reglist.getLsbD n then 1 else 0 := by
  rw [rankOf, List.range_succ, List.filter_append, List.length_append, ← rankOf]
  cases h : reglist.getLsbD n <;> simp [h]

theorem rankOf_le (reglist : BitVec 16) (n : Nat) : rankOf reglist n ≤ n := by
  rw [rankOf]
  exact (List.length_filter_le ..).trans (List.length_range ..).le

/-- A listed register ranks below every later one. -/
theorem rankOf_lt (reglist : BitVec 16) (m n : Nat) (h : m < n) (hm : reglist.getLsbD m = true) :
    rankOf reglist m < rankOf reglist n := by
  induction n with
  | zero => omega
  | succ n ih =>
    rw [rankOf_succ]
    rcases Nat.lt_succ_iff_lt_or_eq.1 h with h | rfl
    · have := ih h
      omega
    · simp [hm]

theorem length_listedRegs (reglist : BitVec 16) :
    (listedRegs reglist).length = rankOf reglist 16 := List.length_map ..

theorem blockBytes_eq (reglist : BitVec 16) : blockBytes reglist = BitVec.ofNat 32 (4 * rankOf reglist 16) := by
  rw [blockBytes, length_listedRegs]

/-- Settles O28: the four modes, by the number of registers listed. -/
theorem blockAddressing : Obligations.BlockAddressing := by
  unfold Obligations.BlockAddressing
  intro base reglist n
  rw [← blockBytes_eq reglist]
  exact ⟨rfl, rfl, rfl, rfl, rfl, rfl⟩

/-- The listed registers from `n` on: what a loop has still to transfer when it has come to register `n`. -/
def listedFrom (reglist : BitVec 16) (n : Nat) : List RegNum :=
  ((List.range' n (16 - n)).filter fun i => reglist.getLsbD i).map (BitVec.ofNat 4 ·)

theorem listedFrom_zero (reglist : BitVec 16) : listedFrom reglist 0 = listedRegs reglist := by
  rw [listedFrom, listedRegs, List.range_eq_range']

theorem listedFrom_sixteen (reglist : BitVec 16) : listedFrom reglist 16 = [] := rfl

theorem listedFrom_of_lt (reglist : BitVec 16) (n : Nat) (hn : n < 16) :
    listedFrom reglist n =
      if reglist.getLsbD n then BitVec.ofNat 4 n :: listedFrom reglist (n + 1) else listedFrom reglist (n + 1) := by
  have hlen : 16 - n = (16 - (n + 1)) + 1 := by omega
  rw [listedFrom, hlen, List.range'_succ, List.filter_cons]
  cases reglist.getLsbD n <;> rfl

/-- Where the transfer of register `n` would be: the running address of a loop that has come to register `n`. -/
def blockRun (pf uf : Bool) (rn : RegNum) (reglist : BitVec 16) (s : State) (n : Nat) : Word :=
  blockStart pf uf (s.readBase rn) reglist + BitVec.ofNat 32 (4 * rankOf reglist n)

theorem busAddr_blockRun (pf uf : Bool) (rn : RegNum) (reglist : BitVec 16) (s : State) (n : Nat) :
    busAddr (blockRun pf uf rn reglist s n) = blockAddr pf uf rn reglist n s := rfl

theorem blockRun_zero (pf uf : Bool) (rn : RegNum) (reglist : BitVec 16) (s : State) :
    blockRun pf uf rn reglist s 0 = blockStart pf uf (s.readBase rn) reglist := BitVec.add_zero _

theorem blockRun_succ (pf uf : Bool) (rn : RegNum) (reglist : BitVec 16) (s : State) (n : Nat) :
    blockRun pf uf rn reglist s (n + 1) =
      if reglist.getLsbD n then blockRun pf uf rn reglist s n + 4#32 else blockRun pf uf rn reglist s n := by
  rw [blockRun, rankOf_succ]
  cases reglist.getLsbD n with
  | false => rfl
  | true =>
    rw [if_pos rfl, if_pos rfl, Nat.mul_add, BitVec.ofNat_add, ← BitVec.add_assoc]
    rfl

/-- Two listed registers stand at different addresses. -/
theorem blockAddr_ne (pf uf : Bool) (rn : RegNum) (reglist : BitVec 16) (s : State) (m n : Nat) (h : m < n)
    (hn : n ≤ 16)
    (hm : reglist.getLsbD m = true) : blockAddr pf uf rn reglist m s ≠ blockAddr pf uf rn reglist n s := by
  intro heq
  have hlt := rankOf_lt reglist m n h hm
  have hle := rankOf_le reglist n
  have hnat := congrArg BitVec.toNat heq
  simp only [blockAddr, BitVec.toNat_setWidth, BitVec.toNat_add, BitVec.toNat_ofNat, addressBits] at hnat
  omega

/-! The instruction, once its operands are allowed. -/

theorem bdtRefusal_allowed {load sf wf : Bool} {rn : RegNum} {reglist : BitVec 16} (meaning : BlockS)
    (h : BdtAllowed load sf wf rn reglist) : bdtRefusal meaning load sf wf rn reglist = none := by
  obtain ⟨hne, hrn, hbank⟩ := h
  rw [bdtRefusal, ite_some_eq_none_iff, ite_some_eq_none_iff, ite_some_eq_none_iff]
  refine ⟨hne, ?_, ?_, rfl⟩
  · simpa using hrn
  · rw [usesUserBank_eq]
    simpa using hbank

/-- A data abort of a block transfer links to the instruction. -/
theorem exec_bdtInstr_allowed {load sf wf : Bool} {rn : RegNum} {reglist : BitVec 16} (c : Cond)
    (pf uf : Bool) (s : State)
    (hc : s.passes c = true) (h : BdtAllowed load sf wf rn reglist) :
    exec (bdtInstr load c pf uf sf wf rn reglist) s =
      bdtFinish s.instrAddr
        (if load then
          ldmLoop (usesUserBank s.cfg.blockS load sf reglist) sf (listedFrom reglist 0)
            (blockRun pf uf rn reglist s 0) false
            (bdtWriteback uf wf rn reglist s)
        else
          stmLoop (usesUserBank s.cfg.blockS load sf reglist) wf rn (s.readBase rn) (listedFrom reglist 0)
            (blockRun pf uf rn reglist s 0) true (bdtWriteback uf wf rn reglist s)) := by
  have hlink : s.instrAddr + linkOffset s.cfg .dataAbort = s.instrAddr := by simp [linkOffset]
  rw [exec_bdtInstr _ _ _ _ _ _ _ _ s hc, bdtExec, bdtRefusal_allowed _ h, listedFrom_zero, blockRun_zero]
  dsimp only
  rw [hlink]
  cases load <;> rfl

/-! The write-back. -/

theorem blockWriteback_eq (uf : Bool) (rn : RegNum) (reglist : BitVec 16) (s : State) :
    blockWriteback uf (s.readBase rn) reglist = blockNewBase uf rn reglist s := by
  rw [blockWriteback, blockNewBase, blockBytes_eq]

theorem bdtWriteback_of_true (uf : Bool) (rn : RegNum) (reglist : BitVec 16) (s : State) :
    bdtWriteback uf true rn reglist s = s.setReg rn (blockNewBase uf rn reglist s) := by
  rw [bdtWriteback, if_pos rfl, blockWriteback_eq]

theorem bdtWriteback_of_false (uf : Bool) (rn : RegNum) (reglist : BitVec 16) (s : State) :
    bdtWriteback uf false rn reglist s = s := rfl

/-- The write-back writes the registers only. -/
theorem bdtWriteback_eq (uf wf : Bool) (rn : RegNum) (reglist : BitVec 16) (s : State) (h : wf = true → rn ≠ 15#4) :
    bdtWriteback uf wf rn reglist s = { s with regs := (bdtWriteback uf wf rn reglist s).regs } := by
  cases wf with
  | false => rfl
  | true =>
    rw [bdtWriteback_of_true]
    exact setReg_eq_of_ne s rn _ (h rfl)

/-- A slot after the write-back. -/
theorem getSlot_bdtWriteback (uf wf : Bool) (rn : RegNum) (reglist : BitVec 16) (s : State) (k : Slot) :
    (bdtWriteback uf wf rn reglist s).getSlot k =
      if wf = true ∧ k = slotOf s.mode rn then blockNewBase uf rn reglist s else s.getSlot k := by
  cases wf with
  | false => simp [bdtWriteback_of_false]
  | true => simp [bdtWriteback_of_true, getSlot_setReg]

/-- The registers written back, in a state with the R15 of `s`. -/
theorem bdtWriteback_spec (uf wf : Bool) (rn : RegNum) (reglist : BitVec 16) (s t : State) (h : wf = true → rn ≠ 15#4)
    (hregs : t.regs = (bdtWriteback uf wf rn reglist s).regs) (hr15 : t.r15 = s.r15) :
    (wf = true → t.reg rn = blockNewBase uf rn reglist s ∧ SlotsKept s t [slotOf s.mode rn]) ∧
    (wf = false → t.regs = s.regs) := by
  have hslot : ∀ k, k ≠ .r15 → t.getSlot k =
      if wf = true ∧ k = slotOf s.mode rn then blockNewBase uf rn reglist s else s.getSlot k := fun k hk => by
    rw [getSlot_of_regs _ _ k hk hregs, getSlot_bdtWriteback]
  refine ⟨fun hwf => ⟨?_, fun k hk hl => ?_⟩, fun hwf => ?_⟩
  · have hne : slotOf s.mode rn ≠ .r15 := by
      rw [Ne, slotOf_eq_r15]
      exact h hwf
    rw [State.reg, mode_of_r15 _ _ hr15, hslot _ hne, if_pos ⟨hwf, rfl⟩]
  · rw [hslot k hk, if_neg fun hk' => hl (by simp [hk'.2])]
  · subst hwf
    exact hregs

/-! A misaligned base. -/

theorem accessFaults_of_misaligned (s : State) (write : Bool) (a : Addr) (h : a.toNat % 4 ≠ 0) :
    AccessFaults s write false a := .inr (.inr ⟨rfl, h⟩)

theorem misaligned_step (a : Word) (h : (busAddr a).toNat % 4 ≠ 0) : (busAddr (a + 4#32)).toNat % 4 ≠ 0 := by
  rw [toNat_busAddr] at *
  rw [BitVec.toNat_add, BitVec.toNat_ofNat]
  omega

/-- Every load of a misaligned block aborts, whether or not the loads go on after an abort. -/
theorem ldmLoop_misaligned (ub sf : Bool) (l : List RegNum) (a : Word) (aborted : Bool) (s : State)
    (h : (busAddr a).toNat % 4 ≠ 0) (hl : aborted = true ∨ l ≠ []) : ldmLoop ub sf l a aborted s = .abort s := by
  induction l generalizing a aborted with
  | nil =>
    rw [hl.resolve_right (by simp)]
    rfl
  | cons i l ih =>
    rw [ldmLoop]
    split
    · rename_i hskip
      exact ih _ _ (misaligned_step a h) (.inl (by rw [Bool.and_eq_true] at hskip; exact hskip.1))
    · have hread : memRead true (busAddr a) s = .abort s :=
        memRead_of_accessFaults s false _ (accessFaults_of_misaligned s false _ h)
      rw [hread]
      exact ih _ _ (misaligned_step a h) (.inl rfl)

theorem stmLoop_misaligned (ub wf : Bool) (rn : RegNum) (base : Word) (l : List RegNum) (a : Word)
    (first : Bool) (s : State)
    (h : (busAddr a).toNat % 4 ≠ 0) (hl : l ≠ []) : stmLoop ub wf rn base l a first s = .abort s := by
  cases l with
  | nil => exact absurd rfl hl
  | cons i l =>
    have hwrite : ∀ v, memWrite true (busAddr a) v s = .abort s := fun v =>
      memWrite_of_accessFaults s false _ v (accessFaults_of_misaligned s true _ h)
    rw [stmLoop, hwrite]

theorem listedRegs_ne_nil (reglist : BitVec 16) (h : reglist ≠ 0#16) : listedRegs reglist ≠ [] := by
  contrapose! h
  apply BitVec.eq_of_getLsbD_eq
  intro i hi
  rw [BitVec.getLsbD_zero, ← Bool.not_eq_true]
  intro hbit
  have hmem : BitVec.ofNat 4 i ∈ listedRegs reglist :=
    List.mem_map_of_mem (List.mem_filter.2 ⟨List.mem_range.2 hi, hbit⟩)
  rw [h] at hmem
  exact absurd hmem (List.not_mem_nil)

/-- The first address of a block is as misaligned as its base. -/
theorem blockStart_mod_four (pf uf : Bool) (base : Word) (reglist : BitVec 16) :
    (blockStart pf uf base reglist).toNat % 4 = base.toNat % 4 := by
  have hlen := rankOf_le reglist 16
  have hbase := base.isLt
  unfold blockStart
  rw [blockBytes_eq]
  split <;> simp only [BitVec.toNat_add, BitVec.toNat_sub, BitVec.toNat_ofNat] <;> omega

/-- Settles O33: the first access aborts, and no later one completes. -/
theorem blockMisaligned : Obligations.BlockMisaligned := by
  unfold Obligations.BlockMisaligned
  intro load c pf uf sf wf rn reglist s hc hallowed hbase
  have hl : listedFrom reglist 0 ≠ [] := by
    rw [listedFrom_zero]
    exact listedRegs_ne_nil reglist hallowed.1
  have hstart : (busAddr (blockRun pf uf rn reglist s 0)).toNat % 4 ≠ 0 := by
    have hmod := blockStart_mod_four pf uf (s.readBase rn) reglist
    rw [blockRun_zero, toNat_busAddr]
    omega
  have hexec : exec (bdtInstr load c pf uf sf wf rn reglist) s =
      .next (raise .dataAbort s.instrAddr (bdtWriteback uf wf rn reglist s)) := by
    rw [exec_bdtInstr_allowed c pf uf s hc hallowed]
    cases load with
    | true => rw [if_pos rfl, ldmLoop_misaligned _ _ _ _ _ _ hstart (.inr hl)]; rfl
    | false => rw [if_neg (by decide), stmLoop_misaligned _ _ _ _ _ _ _ _ hstart hl]; rfl
  have hframe := bdtWriteback_eq uf wf rn reglist s hallowed.2.1
  obtain ⟨hwb, hno⟩ := bdtWriteback_spec uf wf rn reglist s _ hallowed.2.1 rfl ((congrArg State.r15 hframe :))
  exact ⟨_, hexec, hwb, hno, hframe⟩

end Sys2Proof.Machine
end

section
/-! SUPPORT. STM: its loop, access by access, and what it leaves in RAM (44_block_transfer.md R342 to R349). -/

namespace Sys2Proof.Machine

/-! Accesses with other registers. -/

theorem memWrite_withRegs (word : Bool) (a : Addr) (v : Word) (s : State) (g : RegBank) :
    memWrite word a v { s with regs := g } = (memWrite word a v s).onState (State.withCore g s.r15) :=
  memWrite_withCore g s.r15 s word a v ⟨rfl, rfl⟩ (walk_congr _ _ _ _ _ rfl rfl rfl)

theorem memRead_withRegs (word : Bool) (a : Addr) (s : State) (g : RegBank) :
    memRead word a { s with regs := g } = (memRead word a s).onState (State.withCore g s.r15) :=
  memRead_withCore g s.r15 s word a ⟨rfl, rfl⟩ (walk_congr _ _ _ _ _ rfl rfl rfl)

/-- An access that left R15 as it was leaves nothing of the other R15. -/
theorem withCore_of_effect (g : RegBank) {s t : State} (h : AccessEffect s t) :
    State.withCore g s.r15 t = { t with regs := g } := by
  rw [State.withCore, ← h.r15]

/-! The value stored. -/

section stm

variable (pf uf sf wf : Bool) (rn : RegNum) (reglist : BitVec 16) (s : State)

/-- A state an STM has come to: the accesses' effects, and the registers written back before them. -/
def stmState (u : State) : State :=
  { u with regs := (bdtWriteback uf wf rn reglist s).regs }

variable {pf uf sf wf rn reglist s}

theorem stmState_self (h : wf = true → rn ≠ 15#4) : bdtWriteback uf wf rn reglist s = stmState uf wf rn reglist s s :=
  bdtWriteback_eq uf wf rn reglist s h

/-- The value the loop stores for register `i`, first or later (44_block_transfer.md R344, R346). -/
theorem stmValue_eq (hallowed : BdtAllowed false sf wf rn reglist) {u : State} (hu : AccessEffect s u) (i : RegNum) :
    stmValue sf wf (decide (rankOf reglist i.toNat = 0)) rn i (s.readBase rn) (stmState uf wf rn reglist s u) =
      stmStored uf sf wf rn reglist i s := by
  obtain ⟨-, hrn, hbank⟩ := hallowed
  have hr15 : (stmState uf wf rn reglist s u).r15 = s.r15 := hu.r15
  have hslot : ∀ k, k ≠ .r15 → (stmState uf wf rn reglist s u).getSlot k =
      if wf = true ∧ k = slotOf s.mode rn then blockNewBase uf rn reglist s else s.getSlot k := fun k hk =>
    (getSlot_of_regs (bdtWriteback uf wf rn reglist s) (stmState uf wf rn reglist s u) k hk rfl).trans
      (getSlot_bdtWriteback ..)
  unfold stmValue stmStored
  by_cases hi : i = 15#4
  · rw [if_pos hi, if_pos hi, hi, State.readFull, State.readFull, if_pos rfl, if_pos rfl, State.prefetch,
    State.prefetch,
      pc_of_r15 _ _ hr15, hr15]
  · have hne : ∀ m, slotOf m i ≠ .r15 := fun m => by rwa [Ne, slotOf_eq_r15]
    rw [if_neg hi, if_neg hi]
    cases sf with
    | true =>
      have hwf : wf = false := by
        cases wf with
        | false => rfl
        | true => exact absurd ⟨rfl, fun h => absurd h.1 (by decide)⟩ (hbank rfl)
      subst hwf
      rw [Bool.and_false, if_neg Bool.false_ne_true, if_pos rfl]
      exact (hslot _ (hne _)).trans (if_neg fun h => absurd h.1 (by decide))
    | false =>
      rw [if_neg Bool.false_ne_true, blockReg, if_neg Bool.false_ne_true, State.reg, mode_of_r15 _ _ hr15,
        hslot _ (hne _)]
      have hcond : (wf = true ∧ slotOf s.mode i = slotOf s.mode rn) ↔ (wf = true ∧ i = rn) := by rw [slotOf_inj]
      rw [if_congr hcond rfl rfl]
      by_cases hbase : wf = true ∧ i = rn
      · rw [if_pos hbase, if_pos hbase]
        simp [hbase]
      · rw [if_neg hbase, if_neg hbase, if_neg fun h => hbase ?_]
        · rfl
        · rw [Bool.and_eq_true, Bool.and_eq_true, decide_eq_true_iff] at h
          exact ⟨h.2, h.1.1⟩

/-! The loop, access by access. -/

/-- What is left of the loop when it has come to register `n`, in the state that the accesses `u` left. -/
def stmRest (pf uf sf wf : Bool) (rn : RegNum) (reglist : BitVec 16) (s : State) (n : Nat)
  (u : State) : Access Unit :=
  stmLoop sf wf rn (s.readBase rn) (listedFrom reglist n) (blockRun pf uf rn reglist s n) (decide
    (rankOf reglist n = 0))
    (stmState uf wf rn reglist s u)

theorem stmRest_unlisted {n : Nat} (hn : n < 16) (h : reglist.getLsbD n = false) (u : State) :
    stmRest pf uf sf wf rn reglist s n u = stmRest pf uf sf wf rn reglist s (n + 1) u := by
  rw [stmRest, stmRest, listedFrom_of_lt reglist n hn, blockRun_succ, rankOf_succ, h]
  rfl

/-- The access of a listed register, in the state it is made in. -/
theorem memWrite_stmState (hallowed : BdtAllowed false sf wf rn reglist) {n : Nat} (hn : n < 16) {u : State}
    (hu : AccessEffect s u) :
    memWrite true (busAddr (blockRun pf uf rn reglist s n))
        (stmValue sf wf (decide (rankOf reglist n = 0)) rn (BitVec.ofNat 4 n) (s.readBase rn)
          (stmState uf wf rn reglist s u))
        (stmState uf wf rn reglist s u) =
      (memWrite true (blockAddr pf uf rn reglist n s) (stmStored uf sf wf rn reglist (BitVec.ofNat 4 n) s) u).onState
        (State.withCore (bdtWriteback uf wf rn reglist s).regs u.r15) := by
  have hvalue := stmValue_eq (uf := uf) hallowed hu (BitVec.ofNat 4 n)
  rw [BitVec.toNat_ofNat, Nat.mod_eq_of_lt hn] at hvalue
  rw [hvalue, busAddr_blockRun]
  exact memWrite_withRegs ..

theorem stmRest_done (hallowed : BdtAllowed false sf wf rn reglist) {n : Nat} (hn : n < 16)
    (hbit : reglist.getLsbD n = true) {u t : State} (hu : AccessEffect s u)
    (h : memWrite true (blockAddr pf uf rn reglist n s) (stmStored uf sf wf rn reglist
      (BitVec.ofNat 4 n) s) u = .done () t) :
    stmRest pf uf sf wf rn reglist s n u = stmRest pf uf sf wf rn reglist s (n + 1) t := by
  have hnext : decide (rankOf reglist (n + 1) = 0) = false := by
    rw [rankOf_succ, hbit]
    simp
  rw [stmRest, listedFrom_of_lt reglist n hn, if_pos hbit, stmLoop, memWrite_stmState hallowed hn hu, h]
  rw [stmRest, hnext, blockRun_succ, if_pos hbit]
  exact congrArg _ (withCore_of_effect _ ((memWrite_effect ..).of_done h))

theorem stmRest_abort (hallowed : BdtAllowed false sf wf rn reglist) {n : Nat} (hn : n < 16)
    (hbit : reglist.getLsbD n = true) {u t : State} (hu : AccessEffect s u)
    (h : memWrite true (blockAddr pf uf rn reglist n s) (stmStored uf sf wf rn reglist
      (BitVec.ofNat 4 n) s) u = .abort t) :
    stmRest pf uf sf wf rn reglist s n u = .abort (stmState uf wf rn reglist s t) := by
  rw [stmRest, listedFrom_of_lt reglist n hn, if_pos hbit, stmLoop, memWrite_stmState hallowed hn hu, h]
  exact congrArg _ (withCore_of_effect _ ((memWrite_effect ..).of_abort h))

theorem stmRest_sixteen (u : State) : stmRest pf uf sf wf rn reglist s 16 u = .done ()
    (stmState uf wf rn reglist s u) := rfl

/-- The accesses made leave registers and R15 as they were. -/
theorem writesBelow_effect {n : Nat} {v : Nat → State} (h : WritesBelow n pf uf sf wf rn reglist s v) :
    ∀ i ≤ n, AccessEffect s (v i) := by
  intro i
  induction i with
  | zero => intro _; rw [h.1]
  | succ i ih =>
    intro hi
    have hu := ih (by omega)
    have hstep := h.2 i (by omega)
    split at hstep
    · exact hu.trans ((memWrite_effect ..).of_done hstep)
    · rw [hstep]
      exact hu

/-- The loop comes to register `n` when no access below it aborts. -/
theorem stmRest_of_writesBelow (hallowed : BdtAllowed false sf wf rn reglist) {n : Nat}
    (hn : n ≤ 16) {v : Nat → State}
    (h : WritesBelow n pf uf sf wf rn reglist s v) :
    ∀ i ≤ n, stmRest pf uf sf wf rn reglist s 0 s = stmRest pf uf sf wf rn reglist s i (v i) := by
  intro i
  induction i with
  | zero => intro _; rw [h.1]
  | succ i ih =>
    intro hi
    rw [ih (by omega)]
    have hstep := h.2 i (by omega)
    split at hstep
    · rename_i hbit
      exact stmRest_done hallowed (by omega) hbit (writesBelow_effect h i (by omega)) hstep
    · rename_i hbit
      rw [hstep]
      exact stmRest_unlisted (by omega) (by simpa using hbit) _

theorem exec_stm (c : Cond) (hc : s.passes c = true) (hallowed : BdtAllowed false sf wf rn reglist) :
    exec (.stm c pf uf sf wf rn reglist) s = bdtFinish s.instrAddr (stmRest pf uf sf wf rn reglist s 0 s) := by
  have hbank : usesUserBank s.cfg.blockS false sf reglist = sf := by
    rw [usesUserBank_eq]
    simp
  refine (exec_bdtInstr_allowed c pf uf s hc hallowed).trans ?_
  rw [if_neg (by decide), hbank, stmState_self hallowed.2.1]
  rfl

/-- The registers of a state an STM has come to. -/
theorem stmState_spec (hallowed : BdtAllowed false sf wf rn reglist) {u : State} (hu : AccessEffect s u) :
    let t := stmState uf wf rn reglist s u
    (wf = true → t.reg rn = blockNewBase uf rn reglist s ∧ SlotsKept s t [slotOf s.mode rn]) ∧
    (wf = false → t.regs = s.regs) :=
  bdtWriteback_spec uf wf rn reglist s _ hallowed.2.1 rfl hu.r15

/-- An STM none of whose writes aborts. -/
theorem exec_stm_done (c : Cond) (hc : s.passes c = true)
    (hallowed : BdtAllowed false sf wf rn reglist) {v : Nat → State}
    (h : WritesBelow 16 pf uf sf wf rn reglist s v) :
    exec (.stm c pf uf sf wf rn reglist) s = .next (stmState uf wf rn reglist s (v 16)) := by
  rw [exec_stm c hc hallowed, stmRest_of_writesBelow hallowed le_rfl h 16 le_rfl, stmRest_sixteen]
  rfl

/-- An STM whose write for register `j` is the first that aborts. -/
theorem exec_stm_abort (c : Cond) (hc : s.passes c = true) (hallowed : BdtAllowed false sf wf rn reglist) {j : Nat}
    (hj : j < 16) (hbit : reglist.getLsbD j = true) {v : Nat → State} {w : State}
    (h : WritesBelow j pf uf sf wf rn reglist s v)
    (habort : memWrite true (blockAddr pf uf rn reglist j s) (stmStored uf sf wf rn reglist
      (BitVec.ofNat 4 j) s) (v j) =
      .abort w) :
    exec (.stm c pf uf sf wf rn reglist) s = .next (raise .dataAbort s.instrAddr
      (stmState uf wf rn reglist s w)) := by
  rw [exec_stm c hc hallowed, stmRest_of_writesBelow hallowed (by omega) h j le_rfl,
    stmRest_abort hallowed hj hbit (writesBelow_effect h j le_rfl) habort]
  rfl

end stm

/-! RAM. -/

/-- The states an STM to RAM goes through, the registers apart. -/
def stmRam (pf uf sf wf : Bool) (rn : RegNum) (reglist : BitVec 16) (s : State) (n : Nat) : State :=
  match n with
  | 0 => s
  | n + 1 =>
    let u := stmRam pf uf sf wf rn reglist s n
    if reglist.getLsbD n then
      { u with
        mem := ramWrite s.cfg.endian u.mem true (blockAddr pf uf rn reglist n s)
          (stmStored uf sf wf rn reglist (BitVec.ofNat 4 n) s)
        watchHit := u.watchHit || maskBit s.ww (blockAddr pf uf rn reglist n s) }
    else u

section ram

variable {pf uf sf wf : Bool} {rn : RegNum} {reglist : BitVec 16} {s : State}

theorem stmRam_listed {n : Nat} (h : reglist.getLsbD n = true) :
    stmRam pf uf sf wf rn reglist s (n + 1) =
      { stmRam pf uf sf wf rn reglist s n with
        mem := ramWrite s.cfg.endian (stmRam pf uf sf wf rn reglist s n).mem true (blockAddr pf uf rn reglist n s)
          (stmStored uf sf wf rn reglist (BitVec.ofNat 4 n) s)
        watchHit := (stmRam pf uf sf wf rn reglist s n).watchHit || maskBit s.ww (blockAddr pf uf rn reglist n s) } :=
  if_pos h

theorem stmRam_unlisted {n : Nat} (h : reglist.getLsbD n = false) :
    stmRam pf uf sf wf rn reglist s (n + 1) = stmRam pf uf sf wf rn reglist s n :=
  if_neg (by simp [h])

theorem stmRam_eq (n : Nat) :
    stmRam pf uf sf wf rn reglist s n = { s with
      mem := (stmRam pf uf sf wf rn reglist s n).mem, watchHit := (stmRam pf uf sf wf rn reglist s n).watchHit } := by
  induction n with
  | zero => rfl
  | succ n ih =>
    cases h : reglist.getLsbD n with
    | false => rw [stmRam_unlisted h]; exact ih
    | true =>
      rw [stmRam_listed h]
      generalize stmRam pf uf sf wf rn reglist s n = u at *
      conv_lhs => rw [ih]

/-- Every listed register below `n` stands at a RAM page that may be written. -/
def StoresToRam (pf uf : Bool) (rn : RegNum) (reglist : BitVec 16) (s : State) (n : Nat) : Prop :=
  ∀ i : Nat, i < n → reglist.getLsbD i = true → RamWritable s false (blockAddr pf uf rn reglist i s)

theorem walk_stmRam (n : Nat) (a : Addr) (word : Bool) :
    walk (stmRam pf uf sf wf rn reglist s n) .write a word = walk s .write a word := by
  rw [stmRam_eq]
  exact walk_congr _ _ _ _ _ rfl rfl rfl

/-- The accesses of an STM to RAM. -/
theorem writesBelow_stmRam {n : Nat} (h : StoresToRam pf uf rn reglist s n) :
    WritesBelow n pf uf sf wf rn reglist s (stmRam pf uf sf wf rn reglist s) := by
  refine ⟨rfl, fun i hi => ?_⟩
  split
  · rename_i hbit
    obtain ⟨p, hp⟩ := (h i hi hbit).walk
    have hww : (stmRam pf uf sf wf rn reglist s i).ww = s.ww := (congrArg State.ww (stmRam_eq i) :)
    have hcfg : (stmRam pf uf sf wf rn reglist s i).cfg = s.cfg := (congrArg State.cfg (stmRam_eq i) :)
    rw [memWrite_ram true _ _ _ p ((walk_stmRam ..).trans hp), stmRam_listed hbit, ← hww, ← hcfg]
  · rename_i hbit
    exact stmRam_unlisted (by simpa using hbit)

theorem stmRam_wf (hm : Memory.wf s.mem = true) {n : Nat} (h : StoresToRam pf uf rn reglist s n) :
    ∀ i ≤ n, Memory.wf (stmRam pf uf sf wf rn reglist s i).mem = true := by
  intro i
  induction i with
  | zero => exact fun _ => hm
  | succ i ih =>
    intro hi
    cases hbit : reglist.getLsbD i with
    | false => rw [stmRam_unlisted hbit]; exact ih (by omega)
    | true =>
      rw [stmRam_listed hbit]
      exact ramWrite_wf s.cfg.endian _ true _ _ (ih (by omega)) (h i (by omega) hbit).aligned

/-- A byte after one more listed register is stored. -/
theorem memByte_stmRam_listed (hm : Memory.wf s.mem = true) {n i : Nat} (h : StoresToRam pf uf rn reglist s n)
    (hi : i < n)
    (hbit : reglist.getLsbD i = true) (b : Nat) :
    memByte (stmRam pf uf sf wf rn reglist s (i + 1)).mem b =
      if (blockAddr pf uf rn reglist i s).toNat ≤ b ∧ b < (blockAddr pf uf rn reglist i s).toNat + 4 then
        byteOfWord (stmStored uf sf wf rn reglist (BitVec.ofNat 4 i) s) (b - (blockAddr pf uf rn reglist i s).toNat)
      else memByte (stmRam pf uf sf wf rn reglist s i).mem b := by
  rw [stmRam_listed hbit]
  exact stored_ramWrite s.cfg.endian _ false _ _ (stmRam_wf hm h i (by omega)) (h i hi hbit).aligned b

/-- A byte where no listed register stands is kept. -/
theorem memByte_stmRam_other (hm : Memory.wf s.mem = true) {n : Nat} (h : StoresToRam pf uf rn reglist s n) (b : Nat)
    (hb : ∀ i : Nat, i < n → reglist.getLsbD i = true →
      ¬ ((blockAddr pf uf rn reglist i s).toNat ≤ b ∧ b < (blockAddr pf uf rn reglist i s).toNat + 4)) :
    ∀ i ≤ n, memByte (stmRam pf uf sf wf rn reglist s i).mem b = memByte s.mem b := by
  intro i
  induction i with
  | zero => exact fun _ => rfl
  | succ i ih =>
    intro hi
    cases hbit : reglist.getLsbD i with
    | false => rw [stmRam_unlisted hbit]; exact ih (by omega)
    | true =>
      rw [memByte_stmRam_listed hm h (by omega) hbit, if_neg (hb i (by omega) hbit)]
      exact ih (by omega)

/-- Two words of listed registers share no byte. -/
theorem blockAddr_disjoint {n i k : Nat} (h : StoresToRam pf uf rn reglist s n) (hn : n ≤ 16) (hik : i < k)
    (hk : k < n)
    (hi : reglist.getLsbD i = true) (hkbit : reglist.getLsbD k = true) (m : Nat) (hm : m < 4) :
    ¬ ((blockAddr pf uf rn reglist k s).toNat ≤ (blockAddr pf uf rn reglist i s).toNat + m ∧
      (blockAddr pf uf rn reglist i s).toNat + m < (blockAddr pf uf rn reglist k s).toNat + 4) := by
  have hne := blockAddr_ne pf uf rn reglist s i k hik (by omega) hi
  rw [Ne, ← BitVec.toNat_inj] at hne
  have hai := (aligned_iff _).1 ((h i (by omega) hi).aligned rfl)
  have hak := (aligned_iff _).1 ((h k hk hkbit).aligned rfl)
  omega

/-- A byte of the word of register `i`, once it is stored. -/
theorem memByte_stmRam_own (hm : Memory.wf s.mem = true) {n : Nat} (h : StoresToRam pf uf rn reglist s n)
    (hn : n ≤ 16)
    {i : Nat} (hbit : reglist.getLsbD i = true) (m : Nat) (hm4 : m < 4) :
    ∀ k ≤ n, i < k → memByte (stmRam pf uf sf wf rn reglist s k).mem ((blockAddr pf uf rn reglist i s).toNat + m) =
      byteOfWord (stmStored uf sf wf rn reglist (BitVec.ofNat 4 i) s) m := by
  intro k
  induction k with
  | zero => exact fun _ hk => absurd hk (by omega)
  | succ k ih =>
    intro hk hik
    rcases Nat.lt_succ_iff_lt_or_eq.1 hik with hlt | rfl
    · have hkept := ih (by omega) hlt
      cases hkbit : reglist.getLsbD k with
      | false => rw [stmRam_unlisted hkbit]; exact hkept
      | true =>
        rw [memByte_stmRam_listed hm h (by omega) hkbit,
          if_neg (blockAddr_disjoint h hn hlt (by omega) hbit hkbit m hm4)]
        exact hkept
    · rw [memByte_stmRam_listed hm h (by omega) hbit, if_pos (by omega), Nat.add_sub_cancel_left]

/-- The word of register `i`, once it is stored (44_block_transfer.md R342). -/
theorem memWord_stmRam (hm : Memory.wf s.mem = true) {n : Nat} (h : StoresToRam pf uf rn reglist s n) (hn : n ≤ 16)
    {i : RegNum} (hi : i.toNat < n) (hbit : reglist.getLsbD i.toNat = true) :
    memWord (stmRam pf uf sf wf rn reglist s n).mem (blockAddr pf uf rn reglist i.toNat s).toNat =
      stmStored uf sf wf rn reglist i s := by
  have hbyte := fun m hm4 => memByte_stmRam_own (sf := sf) (wf := wf) hm h hn hbit m hm4 n le_rfl hi
  have h0 := hbyte 0 (by decide)
  rw [Nat.add_zero] at h0
  have hreg : BitVec.ofNat 4 i.toNat = i := by simp
  rw [memWord, h0, hbyte 1 (by decide), hbyte 2 (by decide), hbyte 3 (by decide), wordOfBytes_byteOfWord, hreg]

/-- The mark of the words stored (20_memory.md R100). -/
theorem watchHit_stmRam (n : Nat) :
    (stmRam pf uf sf wf rn reglist s n).watchHit =
      (s.watchHit || (List.range n).any fun i => reglist.getLsbD i && maskBit s.ww
        (blockAddr pf uf rn reglist i s)) := by
  induction n with
  | zero => simp [stmRam]
  | succ n ih =>
    rw [List.range_succ, List.any_append, ← Bool.or_assoc, ← ih]
    cases h : reglist.getLsbD n with
    | false => simp [stmRam_unlisted h, h]
    | true => simp [stmRam_listed h, h]

/-- A state an STM to RAM has come to differs in registers, RAM and the mark only. -/
theorem stmState_stmRam_eq (n : Nat) :
    let t := stmState uf wf rn reglist s (stmRam pf uf sf wf rn reglist s n)
    t.r15 = s.r15 ∧ RegsMemWatch s t := by
  have hr15 : (stmRam pf uf sf wf rn reglist s n).r15 = s.r15 := (congrArg State.r15 (stmRam_eq n) :)
  refine ⟨hr15, ?_⟩
  rw [RegsMemWatch, show (stmState uf wf rn reglist s (stmRam pf uf sf wf rn reglist s n)).r15 = s.r15 from hr15]
  exact congrArg (stmState uf wf rn reglist s) (stmRam_eq n)

end ram

/-- Settles O29: the writes one after the other, and what they leave in RAM. -/
theorem storeMultiple : Obligations.StoreMultiple := by
  unfold Obligations.StoreMultiple
  intro c pf uf sf wf rn reglist s hc hallowed
  refine ⟨fun hm hram => ?_, fun v hv => ?_⟩
  · have hwrites := writesBelow_stmRam (sf := sf) (wf := wf) hram
    obtain ⟨hwb, hno⟩ := stmState_spec (uf := uf) hallowed (writesBelow_effect hwrites 16 le_rfl)
    obtain ⟨hr15, hframe⟩ := stmState_stmRam_eq (pf := pf) (uf := uf) (sf := sf) (wf := wf) (rn := rn)
      (reglist := reglist)
      (s := s) 16
    exact ⟨_, exec_stm_done c hc hallowed hwrites, fun i hbit => memWord_stmRam hm hram le_rfl i.isLt hbit,
      fun b hb => memByte_stmRam_other hm hram b hb 16 le_rfl, hwb, hno, hr15, hframe, watchHit_stmRam 16⟩
  · obtain ⟨hwb, hno⟩ := stmState_spec (uf := uf) hallowed (writesBelow_effect hv 16 le_rfl)
    exact ⟨_, exec_stm_done c hc hallowed hv, hwb, hno, rfl⟩

/-- Settles O31: the writes below the first that aborts. -/
theorem storeMultipleAborts : Obligations.StoreMultipleAborts := by
  unfold Obligations.StoreMultipleAborts
  intro c pf uf sf wf rn reglist s j hc hallowed hj hbit
  refine ⟨fun hm hfault hram => ?_, fun v w hv habort => ?_⟩
  · have hwrites := writesBelow_stmRam (sf := sf) (wf := wf) hram
    have heffect := writesBelow_effect hwrites j le_rfl
    have habort : ∀ v, memWrite true (blockAddr pf uf rn reglist j s) v (stmRam pf uf sf wf rn reglist s j) =
        .abort (stmRam pf uf sf wf rn reglist s j) := fun v => by
      refine memWrite_fault _ _ _ _ ((walk_stmRam ..).trans ?_)
      exact walk_dataKind_fault s true false _ hfault
    obtain ⟨hwb, hno⟩ := stmState_spec (uf := uf) hallowed heffect
    obtain ⟨hr15, hframe⟩ := stmState_stmRam_eq (pf := pf) (uf := uf) (sf := sf) (wf := wf) (rn := rn)
      (reglist := reglist)
      (s := s) j
    exact ⟨_, exec_stm_abort c hc hallowed hj hbit hwrites (habort _), fun i hi hb => memWord_stmRam hm hram
      (by omega) hi hb,
      fun b hb => memByte_stmRam_other hm hram b hb j le_rfl, hwb, hno, hr15, hframe⟩
  · obtain ⟨hwb, hno⟩ := stmState_spec (uf := uf) hallowed
      ((writesBelow_effect hv j le_rfl).trans ((memWrite_effect ..).of_abort habort))
    exact ⟨_, exec_stm_abort c hc hallowed hj hbit hv habort, hwb, hno, rfl⟩

end Sys2Proof.Machine
end

section
/-! SUPPORT. LDM: its loop, access by access, and the registers it leaves (44_block_transfer.md R342 to R349). -/

namespace Sys2Proof.Machine

/-! The slots loaded so far. -/

/-- The accesses below `n` that succeed. -/
def okBelow (ok : Nat → Bool) (n i : Nat) : Bool :=
  decide (i < n) && ok i

section slots

variable {uf sf wf : Bool} {rn : RegNum} {reglist : BitVec 16} {s t u : State} {ok ok' : Nat → Bool}
  {out : Nat → Word}

/-- Only the listed registers' accesses matter. -/
theorem LdmSlots.congr (h : LdmSlots uf sf wf rn reglist s t ok out)
    (hok : ∀ i, reglist.getLsbD i = true → ok' i = ok i) :
    LdmSlots uf sf wf rn reglist s t ok' out := by
  obtain ⟨hloaded, hkept⟩ := h
  refine ⟨fun i hi hbit hoki => hloaded i hi hbit
    (by rwa [← hok _ hbit]), fun k hk hne => hkept k hk fun i hbit hoki => ?_⟩
  exact hne i hbit (by rwa [hok _ hbit])

theorem LdmSlots.of_regs (h : LdmSlots uf sf wf rn reglist s t ok out) (hr : u.regs = t.regs) :
    LdmSlots uf sf wf rn reglist s u ok out := by
  obtain ⟨hloaded, hkept⟩ := h
  have hslot : ∀ k, k ≠ .r15 → u.getSlot k = t.getSlot k := fun k hk => getSlot_of_regs _ _ k hk hr
  refine ⟨fun i hi hbit hoki => ?_, fun k hk hne => (hslot k hk).trans (hkept k hk hne)⟩
  rw [hslot _ (by unfold ldmSlot; split <;> rwa [Ne, slotOf_eq_r15])]
  exact hloaded i hi hbit hoki

theorem ldmSlot_inj (sf : Bool) (reglist : BitVec 16) (i j : RegNum) (s : State) :
    ldmSlot sf reglist i s = ldmSlot sf reglist j s ↔ i = j := by
  unfold ldmSlot
  split <;> exact slotOf_inj ..

theorem toNat_ofNat_reg {n : Nat} (hn : n < 16) : (BitVec.ofNat 4 n).toNat = n := by
  rw [BitVec.toNat_ofNat, Nat.mod_eq_of_lt hn]

theorem ofNat_reg_ne_r15 {n : Nat} (hn : n < 15) : BitVec.ofNat 4 n ≠ 15#4 := fun h => by
  have hnat := congrArg BitVec.toNat h
  rw [toNat_ofNat_reg (by omega), show (15#4).toNat = 15 from rfl] at hnat
  omega

/-- Before the first access: the base written back. -/
theorem ldmSlots_zero : LdmSlots uf sf wf rn reglist s (bdtWriteback uf wf rn reglist s) (okBelow ok 0) out :=
  ⟨fun i _ _ hok => by simp [okBelow] at hok, fun k _ _ => getSlot_bdtWriteback ..⟩

/-- Nothing loaded for register `n`. -/
theorem LdmSlots.skip {n : Nat} (h : LdmSlots uf sf wf rn reglist s t (okBelow ok n) out)
    (hn : reglist.getLsbD n = true → ok n = false) : LdmSlots uf sf wf rn reglist s t (okBelow ok (n + 1)) out := by
  refine h.congr fun i hbit => ?_
  unfold okBelow
  by_cases hi : i = n
  · subst hi
    simp [hn hbit]
  · rw [decide_eq_decide.2 (show i < n + 1 ↔ i < n by omega)]

/-- Register `n` loaded. -/
theorem LdmSlots.load {n : Nat} (hn : n < 15) (h : LdmSlots uf sf wf rn reglist s t (okBelow ok n) out)
    (hbit : reglist.getLsbD n = true) (hok : ok n = true)
    (hu : ∀ k, k ≠ .r15 →
      u.getSlot k = if k = ldmSlot sf reglist (BitVec.ofNat 4 n) s then out n else t.getSlot k) :
    LdmSlots uf sf wf rn reglist s u (okBelow ok (n + 1)) out := by
  obtain ⟨hloaded, hkept⟩ := h
  have hnat : (BitVec.ofNat 4 n).toNat = n := toNat_ofNat_reg (by omega)
  refine ⟨fun i hi hibit hoki => ?_, fun k hk hne => ?_⟩
  · have hslot : ldmSlot sf reglist i s ≠ .r15 := by unfold ldmSlot; split <;> rwa [Ne, slotOf_eq_r15]
    rw [hu _ hslot, if_congr (ldmSlot_inj ..) rfl rfl]
    by_cases hin : i = BitVec.ofNat 4 n
    · rw [if_pos hin, hin, hnat]
    · have hlt : i.toNat ≠ n := fun h => hin (by rw [← h]; simp)
      rw [if_neg hin]
      refine hloaded i hi hibit ?_
      simp only [okBelow, Bool.and_eq_true, decide_eq_true_iff] at hoki ⊢
      exact ⟨by omega, hoki.2⟩
  · have hkn : k ≠ ldmSlot sf reglist (BitVec.ofNat 4 n) s :=
      hne _ (by rwa [hnat]) (by rw [hnat]; simp [okBelow, hok])
    rw [hu k hk, if_neg hkn]
    refine hkept k hk fun i hibit hoki => hne i hibit ?_
    simp only [okBelow, Bool.and_eq_true, decide_eq_true_iff] at hoki ⊢
    exact ⟨by omega, hoki.2⟩

/-- R15 has no slot of its own: the registers below it are all there are. -/
theorem LdmSlots.all (h : LdmSlots uf sf wf rn reglist s t (okBelow ok 15) out) :
    LdmSlots uf sf wf rn reglist s t ok out := by
  obtain ⟨hloaded, hkept⟩ := h
  refine ⟨fun i hi hbit hoki => hloaded i hi hbit ?_, fun k hk hne => hkept k hk fun i hbit hoki => hne i hbit ?_⟩
  · have hlt : i.toNat < 15 := by
      have hne : i.toNat ≠ 15 := fun h => hi (BitVec.eq_of_toNat_eq h)
      omega
    simp [okBelow, hlt, hoki]
  · simp only [okBelow, Bool.and_eq_true] at hoki
    exact hoki.2

end slots

/-! The loop, access by access. -/

section ldm

variable {pf uf sf wf : Bool} {rn : RegNum} {reglist : BitVec 16} {s : State}

/-- What is left of the loop when it has come to register `n`. -/
def ldmRest (pf uf sf : Bool) (rn : RegNum) (reglist : BitVec 16) (s : State) (n : Nat) (aborted : Bool) (u : State) :
    Access Unit :=
  ldmLoop (sf && !reglist.getLsbD 15) sf (listedFrom reglist n) (blockRun pf uf rn reglist s n) aborted u

theorem ldmRest_unlisted {n : Nat} (hn : n < 16) (h : reglist.getLsbD n = false) (aborted : Bool) (u : State) :
    ldmRest pf uf sf rn reglist s n aborted u = ldmRest pf uf sf rn reglist s (n + 1) aborted u := by
  rw [ldmRest, ldmRest, listedFrom_of_lt reglist n hn, blockRun_succ, h]
  rfl

/-- A load that the loop skips. -/
def ldmSkips (n : Nat) (aborted : Bool) (u : State) : Bool :=
  aborted && (decide (BitVec.ofNat 4 n = 15#4) || !u.cfg.ldmContinuesAfterAbort)

theorem ldmRest_skip {n : Nat} (hn : n < 16) (hbit : reglist.getLsbD n = true) {aborted : Bool} {u : State}
    (hskip : ldmSkips n aborted u = true) :
    ldmRest pf uf sf rn reglist s n aborted u = ldmRest pf uf sf rn reglist s (n + 1) aborted u := by
  rw [ldmRest, ldmRest, listedFrom_of_lt reglist n hn, if_pos hbit, ldmLoop, blockRun_succ, if_pos hbit]
  exact if_pos hskip

theorem ldmRest_done {n : Nat} (hn : n < 16)
    (hbit : reglist.getLsbD n = true) {aborted : Bool} {u t : State} {g : RegBank}
    {v : Word} (hskip : ldmSkips n aborted u = false) (h : memRead true
      (blockAddr pf uf rn reglist n s) u = .done v t) :
    ldmRest pf uf sf rn reglist s n aborted { u with regs := g } =
      ldmRest pf uf sf rn reglist s (n + 1) aborted
        (ldmInto (sf && !reglist.getLsbD 15) sf (BitVec.ofNat 4 n) v { t with regs := g }) := by
  have hread : memRead true (busAddr
    (blockRun pf uf rn reglist s n)) { u with regs := g } = .done v { t with regs := g } := by
    rw [busAddr_blockRun, memRead_withRegs, h]
    exact congrArg _ (withCore_of_effect g ((memRead_effect ..).of_done h))
  rw [ldmRest, ldmRest, listedFrom_of_lt reglist n hn, if_pos hbit, ldmLoop, blockRun_succ, if_pos hbit]
  refine (if_neg (by rw [Bool.not_eq_true]; exact hskip)).trans ?_
  rw [hread]

theorem ldmRest_abort {n : Nat} (hn : n < 16)
    (hbit : reglist.getLsbD n = true) {aborted : Bool} {u t : State} {g : RegBank}
    (hskip : ldmSkips n aborted u = false) (h : memRead true (blockAddr pf uf rn reglist n s) u = .abort t) :
    ldmRest pf uf sf rn reglist s n aborted { u with regs := g } =
      ldmRest pf uf sf rn reglist s (n + 1) true { t with regs := g } := by
  have hread : memRead true (busAddr
    (blockRun pf uf rn reglist s n)) { u with regs := g } = .abort { t with regs := g } := by
    rw [busAddr_blockRun, memRead_withRegs, h]
    exact congrArg _ (withCore_of_effect g ((memRead_effect ..).of_abort h))
  rw [ldmRest, ldmRest, listedFrom_of_lt reglist n hn, if_pos hbit, ldmLoop, blockRun_succ, if_pos hbit]
  refine (if_neg (by rw [Bool.not_eq_true]; exact hskip)).trans ?_
  rw [hread]

theorem ldmRest_sixteen (aborted : Bool) (u : State) :
    ldmRest pf uf sf rn reglist s 16 aborted u = if aborted then .abort u else .done () u := rfl

theorem setSlot_eq_of_ne (u : State) (k : Slot) (v : Word) (h : k ≠ .r15) :
    u.setSlot k v = { u with regs := (u.setSlot k v).regs } := by
  cases k with
  | r15 => exact absurd rfl h
  | user i | fiq i | irq i | svc i => rfl

/-- A load into a register writes its slot only. -/
theorem ldmInto_reg {n : Nat} (hn : n < 15) (v : Word) {u : State} (hu : u.r15 = s.r15) :
    let t := ldmInto (sf && !reglist.getLsbD 15) sf (BitVec.ofNat 4 n) v u
    t = { u with regs := t.regs } ∧
    ∀ k, t.getSlot k = if k = ldmSlot sf reglist (BitVec.ofNat 4 n) s then v else u.getSlot k := by
  have hne := ofNat_reg_ne_r15 hn
  have hslot : ∀ m, slotOf m (BitVec.ofNat 4 n) ≠ .r15 := fun m => by rwa [Ne, slotOf_eq_r15]
  have hmode : u.mode = s.mode := mode_of_r15 _ _ hu
  rw [ldmInto_eq, if_neg hne]
  intro t
  have ht : t = u.setSlot (ldmSlot sf reglist (BitVec.ofNat 4 n) s) v := by
    simp only [t, setBlockReg, ldmSlot, State.setReg, State.setUserReg, hmode]
    cases sf <;> cases reglist.getLsbD 15 <;> rfl
  rw [ht]
  refine ⟨setSlot_eq_of_ne u _ v (by unfold ldmSlot; split <;> exact hslot _), fun k => getSlot_setSlot ..⟩

/-- Whether an access of a listed register below `n` has aborted. -/
def abortedBelow (reglist : BitVec 16) (ok : Nat → Bool) (n : Nat) : Bool :=
  (List.range n).any fun i => reglist.getLsbD i && !ok i

theorem abortedBelow_succ (ok : Nat → Bool) (n : Nat) :
    abortedBelow reglist ok (n + 1) = (abortedBelow reglist ok n || (reglist.getLsbD n && !ok n)) := by
  simp [abortedBelow, List.range_succ, List.any_append]

theorem abortedBelow_eq_false_iff (ok : Nat → Bool) (n : Nat) :
    abortedBelow reglist ok n = false ↔ ∀ k, k < n → reglist.getLsbD k = true → ok k = true := by
  simp [abortedBelow]

/-- No load below R15 is skipped when the loads go on, or when none has aborted. -/
theorem ldmSkips_of_lt {ok : Nat → Bool} {n : Nat} {u : State} (hn : n < 15)
    (hgo : u.cfg.ldmContinuesAfterAbort = true ∨ ∀ i, ok i = true) :
    ldmSkips n (abortedBelow reglist ok n) u = false := by
  have hne : decide (BitVec.ofNat 4 n = 15#4) = false := decide_eq_false (ofNat_reg_ne_r15 hn)
  rcases hgo with hgo | hok
  · simp [ldmSkips, hne, hgo]
  · have hnone : abortedBelow reglist ok n = false := (abortedBelow_eq_false_iff ok n).2 fun k _ _ => hok k
    simp [ldmSkips, hnone]

/-- The loop comes to register `n`, below R15, with the registers loaded whose accesses succeeded. -/
theorem ldmRest_of_reads (hrn : wf = true → rn ≠ 15#4) {v : Nat → State} {ok : Nat → Bool} {out : Nat → Word}
    (h : Reads pf uf rn reglist s v ok out) (hgo : s.cfg.ldmContinuesAfterAbort = true ∨ ∀ i, ok i = true) :
    ∀ n ≤ 15, ∃ g : RegBank,
      ldmRest pf uf sf rn reglist s 0 false (bdtWriteback uf wf rn reglist s) =
        ldmRest pf uf sf rn reglist s n (abortedBelow reglist ok n) { v n with regs := g } ∧
      LdmSlots uf sf wf rn reglist s { v n with regs := g } (okBelow ok n) out ∧ AccessEffect s (v n) := by
  intro n
  induction n with
  | zero =>
    intro _
    refine ⟨(bdtWriteback uf wf rn reglist s).regs, ?_, ?_, ?_⟩
    · rw [h.1, ← bdtWriteback_eq uf wf rn reglist s hrn]
      rfl
    · exact ldmSlots_zero.of_regs rfl
    · rw [h.1]
  | succ n ih =>
    intro hn
    obtain ⟨g, hloop, hslots, heffect⟩ := ih (by omega)
    have hstep := h.2 n (by omega)
    rw [hloop]
    cases hbit : reglist.getLsbD n with
    | false =>
      rw [if_neg (by simp [hbit])] at hstep
      refine ⟨g, ?_, ?_, by rwa [hstep]⟩
      · rw [ldmRest_unlisted (by omega) hbit, hstep, abortedBelow_succ, hbit]
        simp
      · rw [hstep]
        exact hslots.skip fun hb => by simp [hbit] at hb
    | true =>
      rw [if_pos ⟨hbit, fun h15 => absurd h15 (by omega)⟩] at hstep
      have hskip := ldmSkips_of_lt (reglist := reglist) (ok := ok) (n := n) (u := v n) (by omega)
        (by rwa [heffect.cfg])
      cases hok : ok n with
      | true =>
        rw [hok, if_pos rfl] at hstep
        have hnext := heffect.trans ((memRead_effect ..).of_done hstep)
        obtain ⟨hframe, hslot⟩ := ldmInto_reg (sf := sf) (reglist := reglist) (s := s) (n := n) (by omega) (out n)
          (u := { v (n + 1) with regs := g }) hnext.r15
        refine ⟨(ldmInto (sf && !reglist.getLsbD 15) sf (BitVec.ofNat 4 n) (out n) { v
          (n + 1) with regs := g }).regs, ?_,
          (hslots.load (by omega) hbit hok fun k hk => (hslot k).trans ?_).of_regs rfl, hnext⟩
        · rw [ldmRest_done (by omega) hbit hskip hstep, abortedBelow_succ, hok, Bool.not_true, Bool.and_false,
            Bool.or_false]
          exact congrArg (ldmRest pf uf sf rn reglist s (n + 1) _) hframe
        · exact if_congr Iff.rfl rfl (getSlot_of_regs _ _ k hk rfl)
      | false =>
        rw [hok, if_neg (by decide)] at hstep
        refine ⟨g, ?_, (hslots.skip fun _ => hok).of_regs rfl, heffect.trans ((memRead_effect ..).of_abort hstep)⟩
        rw [ldmRest_abort (by omega) hbit hskip hstep, abortedBelow_succ, hbit, hok]
        simp

/-! The access of R15, and the end. -/

/-- The loop comes to R15. -/
theorem ldmRest_r15 {v : Nat → State} {ok : Nat → Bool} {out : Nat → Word} (h : Reads pf uf rn reglist s v ok out)
    (g : RegBank) :
    ldmRest pf uf sf rn reglist s 15 (abortedBelow reglist ok 15) { v 15 with regs := g } =
      if abortedBelow reglist ok 16 then .abort { v 16 with regs := g }
      else .done () (if reglist.getLsbD 15 then ldmInto (sf && !reglist.getLsbD 15) sf 15#4
        (out 15) { v 16 with regs := g }
        else { v 16 with regs := g }) := by
  have hstep := h.2 15 (by decide)
  have hsucc : abortedBelow reglist ok 16 = (abortedBelow reglist ok 15 || (reglist.getLsbD 15 && !ok 15)) :=
    abortedBelow_succ ok 15
  rw [hsucc]
  cases hbit : reglist.getLsbD 15 with
  | false =>
    rw [if_neg fun hr => absurd (hbit.symm.trans hr.1) (by decide)] at hstep
    rw [ldmRest_unlisted (by decide) hbit, ldmRest_sixteen, hstep, Bool.false_and, Bool.or_false]
    rfl
  | true =>
    rw [Bool.true_and, if_pos rfl]
    cases haborted : abortedBelow reglist ok 15 with
    | true =>
      have hread : ¬ (reglist.getLsbD 15 = true ∧
          (15 = 15 → ∀ k, k < 15 → reglist.getLsbD k = true → ok k = true)) := fun hr => by
        rw [(abortedBelow_eq_false_iff ok 15).2 (hr.2 rfl)] at haborted
        exact absurd haborted (by decide)
      rw [if_neg hread] at hstep
      rw [ldmRest_skip (by decide) hbit (by simp [ldmSkips]), ldmRest_sixteen, hstep]
      rfl
    | false =>
      rw [if_pos ⟨hbit, fun _ => (abortedBelow_eq_false_iff ok 15).1 haborted⟩] at hstep
      have hskip : ldmSkips 15 false (v 15) = false := rfl
      cases hok : ok 15 with
      | true =>
        rw [hok, if_pos rfl] at hstep
        rw [ldmRest_done (by decide) hbit hskip hstep, ldmRest_sixteen, hbit]
        rfl
      | false =>
        rw [hok, if_neg (by decide)] at hstep
        rw [ldmRest_abort (by decide) hbit hskip hstep, ldmRest_sixteen]
        rfl

theorem exec_ldm (c : Cond) (hc : s.passes c = true) (hallowed : BdtAllowed true sf wf rn reglist) :
    exec (.ldm c pf uf sf wf rn reglist) s =
      bdtFinish s.instrAddr (ldmRest pf uf sf rn reglist s 0 false (bdtWriteback uf wf rn reglist s)) :=
  exec_bdtInstr_allowed c pf uf s hc hallowed

/-- All the reads leave registers and R15 as they were. -/
theorem reads_effect {v : Nat → State} {ok : Nat → Bool} {out : Nat → Word}
    (h : Reads pf uf rn reglist s v ok out) (heffect : AccessEffect s (v 15)) : AccessEffect s (v 16) := by
  have hstep := h.2 15 (by decide)
  split at hstep
  · cases hok : ok 15 with
    | true =>
      rw [hok, if_pos rfl] at hstep
      exact heffect.trans ((memRead_effect ..).of_done hstep)
    | false =>
      rw [hok, if_neg (by decide)] at hstep
      exact heffect.trans ((memRead_effect ..).of_abort hstep)
  · rwa [hstep]

/-- An LDM one of whose reads aborts, under the default of `LDM_AFTER_ABORT`. -/
theorem exec_ldm_abort (c : Cond) (hc : s.passes c = true) (hallowed : BdtAllowed true sf wf rn reglist)
    (hgo : s.cfg.ldmContinuesAfterAbort = true) {v : Nat → State} {ok : Nat → Bool} {out : Nat → Word}
    (h : Reads pf uf rn reglist s v ok out) {j : Nat} (hj : j < 16) (hbit : reglist.getLsbD j = true)
      (hok : ok j = false) :
    ∃ u, exec (.ldm c pf uf sf wf rn reglist) s = .next (raise .dataAbort s.instrAddr u) ∧
      LdmSlots uf sf wf rn reglist s u ok out ∧ u = { v 16 with regs := u.regs } := by
  obtain ⟨g, hloop, hslots, -⟩ := ldmRest_of_reads hallowed.2.1 h (.inl hgo) 15 le_rfl
  have haborted : abortedBelow reglist ok 16 = true := by
    rw [← Bool.not_eq_false, abortedBelow_eq_false_iff]
    intro hall
    rw [hall j hj hbit] at hok
    exact absurd hok (by decide)
  refine ⟨{ v 16 with regs := g }, ?_, hslots.all.of_regs rfl, rfl⟩
  rw [exec_ldm c hc hallowed, hloop, ldmRest_r15 h g, haborted]
  rfl

/-- R15 loaded (44_block_transfer.md R346). -/
theorem ldmR15_ldmInto (hbit : reglist.getLsbD 15 = true) (v : Word) {u : State} (hr15 : u.r15 = s.r15)
    (hcfg : u.cfg = s.cfg) (ub : Bool) : LdmR15 sf reglist s (ldmInto ub sf 15#4 v u) v := by
  have hmode : u.mode = s.mode := mode_of_r15 _ _ hr15
  refine ⟨fun h => absurd (hbit.symm.trans h) (by decide), fun _ => ⟨?_, ?_, ?_⟩⟩
  · rintro rfl
    have hinto : ldmInto ub false 15#4 v u = u.writePc v := rfl
    rw [hinto, PsrKept, ← hr15]
    exact ⟨psrKept_writePc .., writePc_field ..⟩
  · rintro rfl hm
    have hinto : ldmInto ub true 15#4 v u = u.writeR15S v := rfl
    rw [hinto, writeR15S_of_privileged u v (by rwa [hmode])]
    rfl
  · rintro rfl hm j hj
    have hinto : ldmInto ub true 15#4 v u = u.writeR15S v := rfl
    rw [hinto, writeR15S_of_usr u v (by rwa [hmode]), getLsbD_writeR15User u v j hj, hcfg, hr15]

/-- A load of R15 writes R15 only. -/
theorem ldmInto_r15_eq (ub sf : Bool) (v : Word) (u : State) :
    ldmInto ub sf 15#4 v u = { u with r15 := (ldmInto ub sf 15#4 v u).r15 } := by
  cases sf with
  | false => rfl
  | true => exact writeR15S_eq u v

/-- An LDM none of whose reads aborts. -/
theorem exec_ldm_done (c : Cond) (hc : s.passes c = true)
    (hallowed : BdtAllowed true sf wf rn reglist) {v : Nat → State}
    {out : Nat → Word} (h : Reads pf uf rn reglist s v (fun _ => true) out) :
    ∃ t, exec (.ldm c pf uf sf wf rn reglist) s = .next t ∧ LdmSlots uf sf wf rn reglist s t (fun _ => true) out ∧
      LdmR15 sf reglist s t (out 15) ∧ t = { v 16 with regs := t.regs, r15 := t.r15 } := by
  obtain ⟨g, hloop, hslots, heffect⟩ := ldmRest_of_reads hallowed.2.1 h (.inr fun _ => rfl) 15 le_rfl
  have hnone : abortedBelow reglist (fun _ => true) 16 = false := (abortedBelow_eq_false_iff _ _).2 fun _ _ _ => rfl
  have hend := reads_effect h heffect
  have hexec := (exec_ldm c hc hallowed).trans (congrArg _ (hloop.trans (ldmRest_r15 h g)))
  rw [hnone, if_neg (by decide)] at hexec
  refine ⟨_, hexec, ?_⟩
  cases hbit : reglist.getLsbD 15 with
  | false =>
    exact ⟨hslots.all.of_regs rfl, ⟨fun _ => hend.r15, fun hb => absurd (hbit.symm.trans hb) (by decide)⟩, rfl⟩
  | true =>
    rw [if_pos rfl]
    have hframe := ldmInto_r15_eq (sf && !true) sf (out 15) { v 16 with regs := g }
    have hregs : (ldmInto (sf && !true) sf 15#4 (out 15) { v 16 with regs := g }).regs = g :=
      (congrArg State.regs hframe :)
    refine ⟨hslots.all.of_regs hregs, 
      ldmR15_ldmInto hbit (out 15) (u := { v 16 with regs := g }) hend.r15 hend.cfg _, ?_⟩
    rw [hregs]
    exact hframe

end ldm

/-! RAM. -/

/-- Whether an LDM comes to the access of register `n`: R15 is not read once an access has aborted. -/
def ldmReached (reglist : BitVec 16) (ok : Nat → Bool) (n : Nat) : Bool :=
  reglist.getLsbD n && (decide (n ≠ 15) || !abortedBelow reglist ok 15)

theorem ldmReached_iff (reglist : BitVec 16) (ok : Nat → Bool) (n : Nat) :
    ldmReached reglist ok n = true ↔
      reglist.getLsbD n = true ∧ (n = 15 → ∀ k, k < 15 → reglist.getLsbD k = true → ok k = true) := by
  rw [← abortedBelow_eq_false_iff]
  simp [ldmReached, imp_iff_not_or]

/-- The states an LDM from RAM and absent pages goes through, the registers apart. -/
def ldmRam (pf uf : Bool) (rn : RegNum) (reglist : BitVec 16) (s : State) (ok : Nat → Bool) (n : Nat) : State :=
  match n with
  | 0 => s
  | n + 1 =>
    let u := ldmRam pf uf rn reglist s ok n
    if ldmReached reglist ok n && ok n then
      { u with watchHit := u.watchHit || maskBit s.wr (blockAddr pf uf rn reglist n s) }
    else u

section ram

variable {pf uf sf wf : Bool} {rn : RegNum} {reglist : BitVec 16} {s : State} {ok : Nat → Bool}

theorem ldmRam_read {n : Nat} (hreached : ldmReached reglist ok n = true) (hok : ok n = true) :
    ldmRam pf uf rn reglist s ok (n + 1) =
      { ldmRam pf uf rn reglist s ok n with
        watchHit := (ldmRam pf uf rn reglist s ok n).watchHit || maskBit s.wr (blockAddr pf uf rn reglist n s) } :=
  if_pos (by simp [hreached, hok])

theorem ldmRam_unread {n : Nat} (h : ldmReached reglist ok n = true → ok n = false) :
    ldmRam pf uf rn reglist s ok (n + 1) = ldmRam pf uf rn reglist s ok n :=
  if_neg (by simpa using h)

theorem ldmRam_eq (n : Nat) :
    ldmRam pf uf rn reglist s ok n = { s with watchHit := (ldmRam pf uf rn reglist s ok n).watchHit } := by
  induction n with
  | zero => rfl
  | succ n ih =>
    by_cases h : ldmReached reglist ok n = true → ok n = false
    · rw [ldmRam_unread h]
      exact ih
    · rw [Classical.not_imp, Bool.not_eq_false] at h
      rw [ldmRam_read h.1 h.2]
      generalize ldmRam pf uf rn reglist s ok n = u at *
      conv_lhs => rw [ih]

theorem walk_ldmRam (n : Nat) (a : Addr) (word : Bool) :
    walk (ldmRam pf uf rn reglist s ok n) .read a word = walk s .read a word := by
  rw [ldmRam_eq]
  exact walk_congr _ _ _ _ _ rfl rfl rfl

/-- The reads of an LDM from RAM and absent pages. -/
theorem reads_ldmRam (h : ∀ i : Nat, i < 16 → reglist.getLsbD i = true →
      if ok i then RamReadable s false (blockAddr pf uf rn reglist i s)
      else AccessFaults s false false (blockAddr pf uf rn reglist i s)) :
    Reads pf uf rn reglist s (ldmRam pf uf rn reglist s ok) ok
      fun i => memWord s.mem (blockAddr pf uf rn reglist i s).toNat := by
  refine ⟨rfl, fun i hi => ?_⟩
  by_cases hreached : ldmReached reglist ok i = true
  · have hbit := ((ldmReached_iff ..).1 hreached).1
    rw [if_pos ((ldmReached_iff ..).1 hreached)]
    have hpage := h i hi hbit
    cases hok : ok i with
    | true =>
      rw [hok, if_pos rfl] at hpage
      obtain ⟨p, hp⟩ := hpage.walk
      have hwr : (ldmRam pf uf rn reglist s ok i).wr = s.wr := (congrArg State.wr (ldmRam_eq i) :)
      have hmem : (ldmRam pf uf rn reglist s ok i).mem = s.mem := (congrArg State.mem (ldmRam_eq i) :)
      rw [memRead_ram true _ _ p
        ((walk_ldmRam ..).trans hp), ramRead_eq, if_pos rfl, if_pos rfl, ldmRam_read hreached hok,
        ← hwr, ← hmem]
    | false =>
      rw [hok, if_neg Bool.false_ne_true] at hpage
      rw [memRead_fault true _ _ ((walk_ldmRam ..).trans (walk_dataKind_fault s false false _ hpage)),
        ldmRam_unread fun _ => hok]
      rfl
  · rw [if_neg fun hr => hreached ((ldmReached_iff ..).2 hr)]
    exact ldmRam_unread fun hr => absurd hr hreached

/-- The mark of the words read (20_memory.md R100). -/
theorem watchHit_ldmRam (n : Nat) :
    (ldmRam pf uf rn reglist s (fun _ => true) n).watchHit =
      (s.watchHit || (List.range n).any fun i => reglist.getLsbD i && maskBit s.wr
        (blockAddr pf uf rn reglist i s)) := by
  induction n with
  | zero => simp [ldmRam]
  | succ n ih =>
    have hreached : ldmReached reglist (fun _ => true) n = reglist.getLsbD n := by
      rw [ldmReached, (abortedBelow_eq_false_iff ..).2 fun _ _ _ => rfl]
      simp
    rw [List.range_succ, List.any_append, ← Bool.or_assoc, ← ih]
    cases h : reglist.getLsbD n with
    | false => simp [ldmRam_unread (n := n) fun hr => absurd (hreached.symm.trans hr) (by simp [h]), h]
    | true => simp [ldmRam_read (hreached.trans h) rfl, h]

end ram

/-- Settles O30: the reads one after the other, and what RAM gives them. -/
theorem loadMultiple : Obligations.LoadMultiple := by
  unfold Obligations.LoadMultiple
  intro c pf uf sf wf rn reglist s hc hallowed word
  refine ⟨fun hram => ?_, fun v out hv => exec_ldm_done c hc hallowed hv⟩
  obtain ⟨t, hexec, hslots, hr15, hframe⟩ :=
    exec_ldm_done c hc hallowed (reads_ldmRam (ok := fun _ => true) fun i hi hbit => by simpa using hram i hi hbit)
  have hwatch : t.watchHit = (ldmRam pf uf rn reglist s (fun _ => true) 16).watchHit :=
    (congrArg State.watchHit hframe :)
  refine ⟨t, hexec, hslots, hr15, hwatch.trans (watchHit_ldmRam 16), ?_⟩
  rw [hwatch]
  exact hframe.trans (congrArg (fun u : State => { u with regs := t.regs, r15 := t.r15 }) (ldmRam_eq 16))

/-- Settles O32: exactly the registers whose read does not abort are loaded. -/
theorem loadMultipleAborts : Obligations.LoadMultipleAborts := by
  unfold Obligations.LoadMultipleAborts
  intro c pf uf sf wf rn reglist s j hc hallowed hgo hj hbit word
  refine ⟨fun ok hok hpages => ?_, fun v ok out hok hv => exec_ldm_abort c hc hallowed hgo hv hj hbit hok⟩
  obtain ⟨u, hexec, hslots, hframe⟩ := exec_ldm_abort c hc hallowed hgo (reads_ldmRam hpages) hj hbit hok
  have hwatch : u.watchHit = (ldmRam pf uf rn reglist s ok 16).watchHit := (congrArg State.watchHit hframe :)
  refine ⟨u, hexec, hslots, ?_⟩
  rw [hwatch]
  exact hframe.trans (congrArg (fun w : State => { w with regs := u.regs }) (ldmRam_eq 16))

end Sys2Proof.Machine
end
